-- ==== Sys2Proof/Word.lean ====
section
/-! DEFINITION. The two word types of the block: a register value is 16 bits (00_scope.md R8 `REG_WIDTH`,
30_encoding.md R62), a frame is a sequence of bytes (20_memory.md R45). All values are unsigned (R10). -/

namespace Sys2Proof

/-- A register value: "a 16-bit unsigned value" (40_register_decoder.md R102). Bit 0 is the least significant (R9). -/
abbrev Word := BitVec 16

/-- One octet of a frame. -/
abbrev Byte := BitVec 8

/-- One frame, offset 0 first, as it is handed to the transport (20_memory.md R45). -/
abbrev Frame := List Byte

end Sys2Proof
end

