-- ==== Sys2Proof/Config.lean ====
section
/-! DEFINITION. What an implementation fixes: the parameters of 00_scope.md R8, the enumerations they range over,
and the values the spec leaves free (constants without a body). -/

namespace Sys2Proof

/-- The four payload policies of CTRL bits 9:8 (30_encoding.md R68). -/
inductive PacketType where
  | random | byteIncrement | predefined | debug
deriving DecidableEq, Repr

/-- CTRL bit 13 (30_encoding.md R70). -/
inductive Mode where
  | continuous | single
deriving DecidableEq, Repr

/-- `UNASSIGNED_CTRL_POLICY`: what a start attempt does with CTRL bits 2, 3, 12, 14, 15 set (30_encoding.md R71). -/
inductive UnassignedPolicy where
  | ignore | refuse
deriving DecidableEq, Repr

/-- `STOP_RULE`: which CTRL values stop a continuous run (42_generator_fsm.md R156). -/
inductive StopRule where
  | bothClear | eitherClear
deriving DecidableEq, Repr

/-- `LENGTH_BYTE_ORDER` of the frame's length field (20_memory.md R46). -/
inductive ByteOrder where
  | bigEndian | littleEndian
deriving DecidableEq, Repr

/-- A map from a 2-bit code (or a draw index in 0..3) to a value, as plain data. -/
structure Map4 (α : Type) where
  c0 : α
  c1 : α
  c2 : α
  c3 : α
deriving DecidableEq, Repr

/-- The value of a code. -/
def Map4.get {α : Type} (m : Map4 α) : Fin 4 → α
  | 0 => m.c0
  | 1 => m.c1
  | 2 => m.c2
  | 3 => m.c3

/-- The values in code order. -/
def Map4.toList {α : Type} (m : Map4 α) : List α := [m.c0, m.c1, m.c2, m.c3]

/-- The parameters of 00_scope.md R8 that a model "may take as an argument". They are fixed for one machine: no step
writes them. DESIGN CHOICE (log 2): they stand in the state, so that a statement about every state covers every
value of each parameter. -/
structure Config where
  /-- `PT_MAP` (30_encoding.md R68, decision D1). -/
  ptMap : Map4 PacketType
  /-- `IPG_MAP`, in bit-times (30_encoding.md R69, decision D2). -/
  ipgMap : Map4 Nat
  /-- `UNASSIGNED_CTRL_POLICY` (30_encoding.md R71, decision D3). -/
  unassignedPolicy : UnassignedPolicy
  /-- `DEBUG_SUBMODE_SELECT`, the CTRL values that the predicate selects (30_encoding.md R73, decision D5; log 5). -/
  debugSubmode : List Word
  /-- `STOP_RULE` (decision D13). -/
  stopRule : StopRule
  /-- `RANDOM_SIZE_ORDER`, size-draw index to frame size (41_frame_synthesizer.md R131, decision D20). -/
  randomSizeOrder : Map4 Nat
  /-- `COUNT_WIDTH` in bits, `none` = unbounded (10_state.md R27, decision D26). -/
  countWidth : Option Nat
  /-- `LENGTH_BYTE_ORDER` (decision D18). -/
  lengthByteOrder : ByteOrder
deriving DecidableEq, Repr

/-- The defaults of 00_scope.md R8. They are the spec's decisions D1, D2, D3, D5, D13, D18, D20 and D26, not the
source's. UNSAFE where a real block differs (log 3 to 9). -/
def Config.standard : Config where
  ptMap := ⟨.random, .byteIncrement, .predefined, .debug⟩
  ipgMap := ⟨48, 96, 960, 9600⟩
  unassignedPolicy := .ignore
  debugSubmode := []
  stopRule := .bothClear
  randomSizeOrder := ⟨64, 256, 1024, 1518⟩
  countWidth := none
  lengthByteOrder := .bigEndian

/-- `SIZE_TABLE`: the fixed frame sizes of size codes 0 to 6, in code order (30_encoding.md R65). -/
def sizeTable : List Nat := [64, 2048, 256, 4096, 1024, 1518, 9000]

/-- `RANDOM_SET`: the sizes a RandomFromSet frame may have (30_encoding.md R66). -/
def randomSet : List Nat := [64, 256, 1024, 1518]

/-- The gaps that 30_encoding.md R69 lists, in bit-times. -/
def ipgSet : List Nat := [48, 96, 960, 9600]

/-- `LEN_ADJUST`: payload length = frame size - 18 (41_frame_synthesizer.md R132). -/
def lenAdjust : Nat := 18

/-- `HEADER_LEN` (41_frame_synthesizer.md R133). -/
def headerLen : Nat := 14

/-- The constraints the spec puts on the parameters: "exactly one code selects Debug" (30_encoding.md R68), every gap
is one of the four (R69), the size draw ranges over exactly RANDOM_SET (R66, R131). -/
def Config.wellFormed (c : Config) : Bool :=
  c.ptMap.toList.count .debug == 1
    && c.ipgMap.toList.all (ipgSet.contains ·)
    && c.randomSizeOrder.toList.isPerm randomSet

/-- One size draw that the environment has not supplied: a FREE VALUE, an index in 0..3 (41_frame_synthesizer.md R131,
decision D20; log 7). -/
opaque Config.freeSizeDraw : Nat → Fin 4

/-- One byte draw that the environment has not supplied: a FREE VALUE (41_frame_synthesizer.md R135, decision D20;
log 7). -/
opaque Config.freeByteDraw : Nat → Byte

/-- `CTRL_ADDR`, OPEN (20_memory.md R41, decision D6): no rule depends on it (log 17). -/
opaque Config.ctrlAddr : Nat

/-- `DATA_ADDR`, OPEN (20_memory.md R41, decision D6): no rule depends on it (log 17). -/
opaque Config.dataAddr : Nat

/-- `LINK_RATE_BPS`, OPEN (60_exceptions.md R224, decision D21): a positive rate, of which nothing else is known (log 17). -/
opaque Config.linkRateBps : ℕ+

end Sys2Proof
end

