-- ==== Sys2Proof/Syntax.lean ====
section
/-! DEFINITION. The events the block takes (30_encoding.md R79) and the instructions: one constructor of `Instr` per
row of spec/opcode_table.json, a row of WRCTRL being a decode class of the CTRL value (R77, R78). -/

namespace Sys2Proof

/-- The content of a transport error: "opaque" (60_exceptions.md R216), written as the text of a script's SENDERR
(30_encoding.md R81). DESIGN CHOICE (log 16): any text, uninterpreted. -/
abbrev TransportInfo := String

/-- The host-addressable registers: "the register selector {CTRL, DATA}" (20_memory.md R40). -/
inductive Reg where
  | ctrl | data
deriving DecidableEq, Repr

/-- One event, told apart by the interface it arrives on (00_scope.md R7, 30_encoding.md R79). -/
inductive Event where
  | wrCtrl (v : Word)
  | wrData (v : Word)
  | setLimit (l : Option Nat)
  | cancel
  | sendDoneOk
  | sendDoneErr (e : TransportInfo)
  | gapElapsed
deriving DecidableEq, Repr

/-- What the environment can do to the block between two steps: an event, or the reset event, which the opcode table
does not list (70_reset_and_hazards.md R240; log 20). -/
inductive Input where
  | reset
  | event (e : Event)
deriving DecidableEq, Repr

/-- The event that writes register `r`. -/
def Reg.write (r : Reg) (v : Word) : Event :=
  match r with
  | .ctrl => .wrCtrl v
  | .data => .wrData v

/-- One constructor per row of spec/opcode_table.json. `other` and `unassigned` hold bits of the CTRL value in their
own places (bit `i` of the operand is bit `i` of the value); `WellFormed` says which places each may use. -/
inductive Instr where
  /-- WRCTRL.CTRL_RESERVED (R77 row 1); `other` is bits 15:8 and 6:0. -/
  | ctrlReserved (other : Word)
  /-- WRCTRL.CTRL_NOTRUN_00 (R77 row 2); `other` is bits 15:8 and 6:2. -/
  | ctrlNotrun00 (other : Word)
  /-- WRCTRL.CTRL_NOTRUN_01 (R77 row 3). -/
  | ctrlNotrun01 (other : Word)
  /-- WRCTRL.CTRL_NOTRUN_10 (R77 row 4). -/
  | ctrlNotrun10 (other : Word)
  /-- WRCTRL.CTRL_START_DEBUG (R77 row 5); `unassigned` is bits 15, 14, 12, 3, 2. -/
  | ctrlStartDebug (size : BitVec 3) (ipg : BitVec 2) (mode : Mode) (unassigned : Word)
  /-- WRCTRL.CTRL_START_CONT_RANDOM (R77 row 6). -/
  | ctrlStartContRandom (size : BitVec 3) (ipg : BitVec 2) (unassigned : Word)
  /-- WRCTRL.CTRL_START_CONT_INCR (R77 row 7). -/
  | ctrlStartContIncr (size : BitVec 3) (ipg : BitVec 2) (unassigned : Word)
  /-- WRCTRL.CTRL_START_CONT_PREDEF (R77 row 8). -/
  | ctrlStartContPredef (size : BitVec 3) (ipg : BitVec 2) (unassigned : Word)
  /-- WRCTRL.CTRL_START_SINGLE_RANDOM (R77 row 9). -/
  | ctrlStartSingleRandom (size : BitVec 3) (ipg : BitVec 2) (unassigned : Word)
  /-- WRCTRL.CTRL_START_SINGLE_INCR (R77 row 10). -/
  | ctrlStartSingleIncr (size : BitVec 3) (ipg : BitVec 2) (unassigned : Word)
  /-- WRCTRL.CTRL_START_SINGLE_PREDEF (R77 row 11). -/
  | ctrlStartSinglePredef (size : BitVec 3) (ipg : BitVec 2) (unassigned : Word)
  /-- WRCTRL.CTRLR_RESERVED (R78 row 1); `other` is bits 15:8 and 6:2. -/
  | ctrlrReserved (enable start : Bool) (other : Word)
  /-- WRCTRL.CTRLR_STOP (R78 row 2); `other` is bits 15:8 and 6:2. -/
  | ctrlrStop (other : Word)
  /-- WRCTRL.CTRLR_NOSTOP_01 (R78 row 3). -/
  | ctrlrNostop01 (other : Word)
  /-- WRCTRL.CTRLR_NOSTOP_10 (R78 row 4). -/
  | ctrlrNostop10 (other : Word)
  /-- WRCTRL.CTRLR_NOSTOP_11 (R78 row 5). -/
  | ctrlrNostop11 (other : Word)
  /-- WRDATA (R61, R157). -/
  | wrData (dst src : BitVec 4) (fill : Byte)
  /-- SETLIMIT (R158). -/
  | setLimit (l : Option Nat)
  /-- CANCEL (R159 to R161). -/
  | cancel
  /-- SENDDONE_OK (R162). -/
  | sendDoneOk
  /-- SENDDONE_ERR (R163). -/
  | sendDoneErr (e : TransportInfo)
  /-- GAPELAPSED (R164). -/
  | gapElapsed
deriving DecidableEq, Repr

end Sys2Proof
end

