-- ==== Sys2Proof/WellFormed.lean ====
section
/-! DEFINITION. Which operands an instruction may have: each operand of bits uses only the places that its row of the
opcode table leaves to it. -/

namespace Sys2Proof

/-- CTRL bits 2, 3, 12, 14, 15, "named by no field" (30_encoding.md R71). -/
def unassignedMask : Word := 0xD00C

/-- The places outside the mask 0x0080 of the reserved rows. -/
def reservedOther : Word := 0xFF7F

/-- The places outside the mask 0x0083 of the not-a-start and Running rows. -/
def notrunOther : Word := 0xFF7C

/-- `w` has no bit outside `m`. -/
def within (m w : Word) : Bool := w &&& m == w

/-- The operands use only their own places. -/
def Instr.wellFormed : Instr → Bool
  | .ctrlReserved o => within reservedOther o
  | .ctrlNotrun00 o => within notrunOther o
  | .ctrlNotrun01 o => within notrunOther o
  | .ctrlNotrun10 o => within notrunOther o
  | .ctrlStartDebug _ _ _ u => within unassignedMask u
  | .ctrlStartContRandom _ _ u => within unassignedMask u
  | .ctrlStartContIncr _ _ u => within unassignedMask u
  | .ctrlStartContPredef _ _ u => within unassignedMask u
  | .ctrlStartSingleRandom _ _ u => within unassignedMask u
  | .ctrlStartSingleIncr _ _ u => within unassignedMask u
  | .ctrlStartSinglePredef _ _ u => within unassignedMask u
  | .ctrlrReserved _ _ o => within notrunOther o
  | .ctrlrStop o => within notrunOther o
  | .ctrlrNostop01 o => within notrunOther o
  | .ctrlrNostop10 o => within notrunOther o
  | .ctrlrNostop11 o => within notrunOther o
  | .wrData _ _ _ => true
  | .setLimit _ => true
  | .cancel => true
  | .sendDoneOk => true
  | .sendDoneErr _ => true
  | .gapElapsed => true

end Sys2Proof
end

