-- ==== Sys2Proof/Decode.lean ====
section
/-! DEFINITION. The fields of a register value (30_encoding.md R60, R61, R75), the decoder from an event to its row of
the opcode table (R77, R78), and the encoder back. -/

namespace Sys2Proof

/-- Field extraction: `(v >> lo) & (2^w - 1)`, never sign-extended or scaled (30_encoding.md R75, 00_scope.md R10). -/
def bitField (v : Word) (lo w : Nat) : BitVec w := v.extractLsb' lo w

/-- CTRL bit 0 (30_encoding.md R63). -/
def enableBit (v : Word) : Bool := v.getLsbD 0

/-- CTRL bit 1 (30_encoding.md R64). -/
def startBit (v : Word) : Bool := v.getLsbD 1

/-- CTRL bits 6:4 (30_encoding.md R65). -/
def sizeCode (v : Word) : BitVec 3 := bitField v 4 3

/-- CTRL bit 7 (30_encoding.md R67). -/
def reservedBit (v : Word) : Bool := v.getLsbD 7

/-- CTRL bits 9:8 (30_encoding.md R68). -/
def packetTypeCode (v : Word) : BitVec 2 := bitField v 8 2

/-- CTRL bits 11:10 (30_encoding.md R69). -/
def ipgCode (v : Word) : BitVec 2 := bitField v 10 2

/-- CTRL bit 13: 0 selects Continuous, 1 selects Single (30_encoding.md R70). -/
def modeOf (v : Word) : Mode := if v.getLsbD 13 then .single else .continuous

/-- DATA bits 15:12 (30_encoding.md R61). -/
def dstNibble (v : Word) : BitVec 4 := bitField v 12 4

/-- DATA bits 11:8 (30_encoding.md R61). -/
def srcNibble (v : Word) : BitVec 4 := bitField v 8 4

/-- DATA bits 7:0 (30_encoding.md R61). -/
def fillByte (v : Word) : Byte := bitField v 0 8

/-- Why a write names no instruction. Both reasons are about bits alone. -/
inductive DecodeError where
  /-- the value is not a 16-bit value: "Every register value is exactly 16 bits" (30_encoding.md R62). -/
  | notSixteenBits
  /-- no row of the table matches. It never happens: the rows cover all 65536 values (30_encoding.md R77). -/
  | noClass
deriving DecidableEq, Repr

/-- One row of R77 or R78: a value `v` is in the class when `v & mask = match`. -/
structure CtrlRow where
  mask : Word
  pattern : Word
  build : Word → Instr

/-- The decode classes of WRCTRL in Idle, in the order 30_encoding.md R77 tests them. -/
def idleRows : List CtrlRow := [
  ⟨0x0080, 0x0080, fun v => .ctrlReserved (v &&& reservedOther)⟩,
  ⟨0x0083, 0x0000, fun v => .ctrlNotrun00 (v &&& notrunOther)⟩,
  ⟨0x0083, 0x0001, fun v => .ctrlNotrun01 (v &&& notrunOther)⟩,
  ⟨0x0083, 0x0002, fun v => .ctrlNotrun10 (v &&& notrunOther)⟩,
  ⟨0x0383, 0x0303, fun v => .ctrlStartDebug (sizeCode v) (ipgCode v) (modeOf v) (v &&& unassignedMask)⟩,
  ⟨0x2383, 0x0003, fun v => .ctrlStartContRandom (sizeCode v) (ipgCode v) (v &&& unassignedMask)⟩,
  ⟨0x2383, 0x0103, fun v => .ctrlStartContIncr (sizeCode v) (ipgCode v) (v &&& unassignedMask)⟩,
  ⟨0x2383, 0x0203, fun v => .ctrlStartContPredef (sizeCode v) (ipgCode v) (v &&& unassignedMask)⟩,
  ⟨0x2383, 0x2003, fun v => .ctrlStartSingleRandom (sizeCode v) (ipgCode v) (v &&& unassignedMask)⟩,
  ⟨0x2383, 0x2103, fun v => .ctrlStartSingleIncr (sizeCode v) (ipgCode v) (v &&& unassignedMask)⟩,
  ⟨0x2383, 0x2203, fun v => .ctrlStartSinglePredef (sizeCode v) (ipgCode v) (v &&& unassignedMask)⟩]

/-- The decode classes of WRCTRL in Running, in the order 30_encoding.md R78 tests them. -/
def runningRows : List CtrlRow := [
  ⟨0x0080, 0x0080, fun v => .ctrlrReserved (enableBit v) (startBit v) (v &&& notrunOther)⟩,
  ⟨0x0083, 0x0000, fun v => .ctrlrStop (v &&& notrunOther)⟩,
  ⟨0x0083, 0x0001, fun v => .ctrlrNostop01 (v &&& notrunOther)⟩,
  ⟨0x0083, 0x0002, fun v => .ctrlrNostop10 (v &&& notrunOther)⟩,
  ⟨0x0083, 0x0003, fun v => .ctrlrNostop11 (v &&& notrunOther)⟩]

/-- "The classes are tested in this order and the first that matches applies" (30_encoding.md R77). -/
def firstMatch : List CtrlRow → Word → Except DecodeError Instr
  | [], _ => .error .noClass
  | r :: rs, v => if v &&& r.mask = r.pattern then .ok (r.build v) else firstMatch rs v

/-- The instruction an event is. A CTRL value's class depends on whether a run is in progress (R77, R78); every other
event is its own instruction, told by its interface (R79). -/
def decode (running : Bool) : Event → Except DecodeError Instr
  | .wrCtrl v => firstMatch (if running then runningRows else idleRows) v
  | .wrData v => .ok (.wrData (dstNibble v) (srcNibble v) (fillByte v))
  | .setLimit l => .ok (.setLimit l)
  | .cancel => .ok .cancel
  | .sendDoneOk => .ok .sendDoneOk
  | .sendDoneErr e => .ok (.sendDoneErr e)
  | .gapElapsed => .ok .gapElapsed

/-- A register value from a number: 16 bits or nothing (30_encoding.md R62). -/
def registerValue (w : Nat) : Except DecodeError Word :=
  if w < 65536 then .ok (BitVec.ofNat 16 w) else .error .notSixteenBits

/-- The instruction that a host write of the number `w` to register `r` is. -/
def decodeWrite (running : Bool) (r : Reg) (w : Nat) : Except DecodeError Instr :=
  match registerValue w with
  | .ok v => decode running (r.write v)
  | .error e => .error e

/-- The opcode table's words as CTRL writes in Idle, the control point after reset. The table gives its Running rows
and WRDATA the same bits (the control point and the register selector tell them apart), so those rows cannot be read
from bits alone (log 15). -/
def decodeTableWord (_nbits w : Nat) : Option Instr := (decodeWrite false .ctrl w).toOption

/-! ### The encoder -/

/-- CTRL bits 1:0. -/
def runBits (enable start : Bool) : Word :=
  (if enable then 0x0001 else 0) ||| (if start then 0x0002 else 0)

/-- CTRL bit 13. -/
def modeBits : Mode → Word
  | .continuous => 0x0000
  | .single => 0x2000

/-- A start row's value: its fixed bits, size code in 6:4, gap code in 11:10, unassigned bits in place (R77 rows 5
to 11). -/
def startWord (pattern : Word) (size : BitVec 3) (ipg : BitVec 2) (unassigned : Word) : Word :=
  pattern ||| (size.setWidth 16 <<< 4) ||| (ipg.setWidth 16 <<< 10) ||| unassigned

/-- A DATA value (30_encoding.md R61). -/
def dataWord (dst src : BitVec 4) (fill : Byte) : Word :=
  (dst.setWidth 16 <<< 12) ||| (src.setWidth 16 <<< 8) ||| fill.setWidth 16

/-- The event an instruction is, its register value written out from R60, R61, R77 and R78. -/
def encode : Instr → Event
  | .ctrlReserved o => .wrCtrl (0x0080 ||| o)
  | .ctrlNotrun00 o => .wrCtrl (0x0000 ||| o)
  | .ctrlNotrun01 o => .wrCtrl (0x0001 ||| o)
  | .ctrlNotrun10 o => .wrCtrl (0x0002 ||| o)
  | .ctrlStartDebug s g m u => .wrCtrl (startWord (0x0303 ||| modeBits m) s g u)
  | .ctrlStartContRandom s g u => .wrCtrl (startWord 0x0003 s g u)
  | .ctrlStartContIncr s g u => .wrCtrl (startWord 0x0103 s g u)
  | .ctrlStartContPredef s g u => .wrCtrl (startWord 0x0203 s g u)
  | .ctrlStartSingleRandom s g u => .wrCtrl (startWord 0x2003 s g u)
  | .ctrlStartSingleIncr s g u => .wrCtrl (startWord 0x2103 s g u)
  | .ctrlStartSinglePredef s g u => .wrCtrl (startWord 0x2203 s g u)
  | .ctrlrReserved e t o => .wrCtrl (0x0080 ||| runBits e t ||| o)
  | .ctrlrStop o => .wrCtrl (0x0000 ||| o)
  | .ctrlrNostop01 o => .wrCtrl (0x0001 ||| o)
  | .ctrlrNostop10 o => .wrCtrl (0x0002 ||| o)
  | .ctrlrNostop11 o => .wrCtrl (0x0003 ||| o)
  | .wrData d s f => .wrData (dataWord d s f)
  | .setLimit l => .setLimit l
  | .cancel => .cancel
  | .sendDoneOk => .sendDoneOk
  | .sendDoneErr e => .sendDoneErr e
  | .gapElapsed => .gapElapsed

/-- Whether the row can be decoded at the control point: R77's rows in Idle, R78's in Running, the others in both
(R79). -/
def Instr.decodedAt (running : Bool) : Instr → Bool
  | .ctrlReserved _ => !running
  | .ctrlNotrun00 _ => !running
  | .ctrlNotrun01 _ => !running
  | .ctrlNotrun10 _ => !running
  | .ctrlStartDebug _ _ _ _ => !running
  | .ctrlStartContRandom _ _ _ => !running
  | .ctrlStartContIncr _ _ _ => !running
  | .ctrlStartContPredef _ _ _ => !running
  | .ctrlStartSingleRandom _ _ _ => !running
  | .ctrlStartSingleIncr _ _ _ => !running
  | .ctrlStartSinglePredef _ _ _ => !running
  | .ctrlrReserved _ _ _ => running
  | .ctrlrStop _ => running
  | .ctrlrNostop01 _ => running
  | .ctrlrNostop10 _ => running
  | .ctrlrNostop11 _ => running
  | .wrData _ _ _ => true
  | .setLimit _ => true
  | .cancel => true
  | .sendDoneOk => true
  | .sendDoneErr _ => true
  | .gapElapsed => true

end Sys2Proof
end

