-- ==== Sys2Proof/Machine/State.lean ====
section
/-! DEFINITION. The state of the block (10_state.md R20 to R34), the outputs it produces (42_generator_fsm.md R150),
its errors (60_exceptions.md R210), and the reasons a step can stop. Plain data throughout. -/

namespace Sys2Proof.Machine

/-- The field an `UnimplementedOption` names (60_exceptions.md R215). -/
inductive OptionField where
  | packetType | debugSubMode | channelSelect | managementOption | unassignedCtrlBits
deriving DecidableEq, Repr

/-- The value an `UnimplementedOption` names (60_exceptions.md R215). -/
inductive OptionValue where
  | none
  | debug
  | single
  | bits (v : Word)
deriving DecidableEq, Repr

/-- The five errors with the information each records (60_exceptions.md R210). -/
inductive Err where
  | literalParseError (text : String) (radix : Nat)
  | reservedBitSet (corrected : Word)
  | notEnabledOrStarted (enable start : Bool)
  | unimplementedOption (field : OptionField) (value : OptionValue)
  | transportError (e : TransportInfo)
deriving DecidableEq, Repr

/-- The two classes of errors (60_exceptions.md R211). -/
inductive ErrClass where
  | decode | runtime
deriving DecidableEq, Repr

/-- The size policy of CTRL bits 6:4 (30_encoding.md R65, R66). -/
inductive SizePolicy where
  | fixed (size : Nat)
  | randomFromSet
deriving DecidableEq, Repr

/-- A MAC address: six octets in written order (00_scope.md R10). -/
structure Mac where
  o1 : Byte
  o2 : Byte
  o3 : Byte
  o4 : Byte
  o5 : Byte
  o6 : Byte
deriving DecidableEq, Repr

/-- The octets in frame order: "`o1` at the lowest offset" (20_memory.md R45). -/
def Mac.toList (m : Mac) : List Byte := [m.o1, m.o2, m.o3, m.o4, m.o5, m.o6]

/-- The GenerationPlan of a run (10_state.md R26). -/
structure Plan where
  size : SizePolicy
  ptype : PacketType
  ipgBits : Nat
  mode : Mode
  dst : Mac
  src : Mac
  fill : Byte
  debugSub : Bool
deriving DecidableEq, Repr

/-- `s.phase` (10_state.md R25). -/
inductive Phase where
  | awaitSend | gap
deriving DecidableEq, Repr

/-- `s.fsm` with what has meaning only in Running: `s.phase` and `s.plan` have no value in Idle (10_state.md R24 to
R26, R34; log 12), so a model cannot read them there. -/
inductive Fsm where
  | idle
  | running (phase : Phase) (plan : Plan)
deriving DecidableEq, Repr

/-- The control point, the block's analogue of a program counter (10_state.md R30). -/
inductive ControlPoint where
  | idle | awaitSend | gap
deriving DecidableEq, Repr

/-- The response to a host event (42_generator_fsm.md R150). -/
inductive Response where
  | accepted
  | ack
  | rejected (e : Err)
deriving DecidableEq, Repr

/-- Why a run ended (42_generator_fsm.md R150). -/
inductive Reason where
  | completed
  | cancelled
  | stopped
  | limitReached
  | failed (e : Err)
deriving DecidableEq, Repr

/-- One output of the block (42_generator_fsm.md R150). -/
inductive Output where
  | resp (r : Response)
  | send (f : Frame)
  | gapStart (b : Nat)
  | runEnd (reason : Reason) (n : Nat)
deriving DecidableEq, Repr

/-- The randomness input (00_scope.md R11, 60_exceptions.md R226): the draws the environment has supplied and the block
has not taken, oldest first, and how many draws were taken after those ran out, each a free value of `Config` (log 7).
Model's own: the randomness source is no state of the block (10_state.md R32). -/
structure DrawSource where
  sizes : List (Fin 4)
  bytes : List Byte
  drawn : Nat
deriving DecidableEq, Repr

/-- Everything the spec gives the block, and the model's own `cfg`, `rng`, `inbox` and `outputs`. -/
structure State where
  /-- The implementation parameters (00_scope.md R8; log 2). No step writes it. -/
  cfg : Config
  /-- `REG[CTRL]` (10_state.md R20). -/
  ctrl : Word
  /-- `REG[DATA]` (10_state.md R21). -/
  data : Word
  /-- `REG[LIMIT]` (10_state.md R22). -/
  limit : Option Nat
  /-- `s.fsm`, with `s.phase` and `s.plan` (10_state.md R24, R25, R26). -/
  fsm : Fsm
  /-- `s.count` (10_state.md R27). -/
  count : Nat
  /-- `s.cancel_req` (10_state.md R28). -/
  cancelReq : Bool
  /-- `s.stop_req` (10_state.md R28). -/
  stopReq : Bool
  /-- `s.run_limit` (10_state.md R29). -/
  runLimit : Option Nat
  /-- The randomness input (log 7). -/
  rng : DrawSource
  /-- The inputs not yet taken, in the environment's total order (20_memory.md R49; log 1). -/
  inbox : List Input
  /-- Every output so far, oldest first (42_generator_fsm.md R172; log 13). -/
  outputs : List Output
deriving DecidableEq, Repr

/-- The block has no trap and never stops by a fault: its errors are outputs (60_exceptions.md, R219). So there is no
reason a step can fault for. -/
inductive Fault where
deriving DecidableEq, Repr

/-- Why a step has no meaning. -/
inductive Refusal where
  /-- An instruction the model has no meaning for; no instruction is. Safe. -/
  | notModelled (mnemonic : String)
  /-- SENDDONE(Ok) or SENDDONE(Err) outside Running.AwaitSend, raised by `execSendDoneOk` and `execSendDoneErr`: "not
  admitted" (42_generator_fsm.md R151). Safe: "the environment has no such move" (log 10). -/
  | sendDoneNotAdmitted
  /-- GAPELAPSED outside Running.Gap, raised by `execGapElapsed`: "not admitted" (42_generator_fsm.md R151). Safe (log 10). -/
  | gapElapsedNotAdmitted
  /-- The decoder found no instruction, raised by `step`. Never: every event has a class (30_encoding.md R77, R78). Safe. -/
  | undecodable (e : DecodeError)
deriving DecidableEq, Repr

/-- Whether a run is in progress (10_state.md R24). -/
def Fsm.isRunning : Fsm → Bool
  | .idle => false
  | .running _ _ => true

/-- The control point `(s.fsm, s.phase)` (10_state.md R30). -/
def State.controlPoint (s : State) : ControlPoint :=
  match s.fsm with
  | .idle => .idle
  | .running .awaitSend _ => .awaitSend
  | .running .gap _ => .gap

/-- `s.phase`, which has a value only in Running (10_state.md R25). -/
def State.phase (s : State) : Option Phase :=
  match s.fsm with
  | .idle => none
  | .running ph _ => some ph

/-- `s.plan`, which has a value only in Running (10_state.md R26). -/
def State.plan (s : State) : Option Plan :=
  match s.fsm with
  | .idle => none
  | .running _ p => some p

/-- No draw supplied (DESIGN CHOICE, log 7). -/
def DrawSource.none : DrawSource := ⟨[], [], 0⟩

/-- The block right after reset (10_state.md R34, 70_reset_and_hazards.md R240). Only `Idle` is the source's; the other
register values are the spec's decision D9 (log 18). `cfg` is the defaults of 00_scope.md R8 (log 2); `rng`, `inbox`
and `outputs` are empty (log 7, 1, 13). -/
def State.reset : State where
  cfg := Config.standard
  ctrl := 0x0000
  data := 0x0000
  limit := none
  fsm := .idle
  count := 0
  cancelReq := false
  stopReq := false
  runLimit := none
  rng := DrawSource.none
  inbox := []
  outputs := []

end Sys2Proof.Machine
end

