-- ==== Sys2Proof/Machine/Operands.lean ====
section
/-! DEFINITION. Every operand form of the block: the register accessors (40_register_decoder.md R100, R101), the CTRL
and DATA decoders (R103 to R107) and plan resolution (R109). Pure functions of their operands and the parameters
(R112). -/

namespace Sys2Proof.Machine

/-- `nibble(v, i)` (40_register_decoder.md R100). -/
def nibble (v : Word) (i : Fin 4) : BitVec 4 := bitField v (4 * i.val) 4

/-- `byte(v, i)` (40_register_decoder.md R101). -/
def byte (v : Word) (i : Fin 2) : Byte := bitField v (8 * i.val) 8

/-- The decoded view of a CTRL value (40_register_decoder.md R103). -/
structure ControlOptions where
  enable : Bool
  start : Bool
  size : SizePolicy
  ptype : PacketType
  ipgBits : Nat
  mode : Mode
  unassigned : Word
  debugSub : Bool
deriving DecidableEq, Repr

/-- `size_policy(c)`: SIZE_TABLE for codes 0 to 6, RandomFromSet for code 7 (40_register_decoder.md R105). -/
def sizePolicy (c : BitVec 3) : SizePolicy :=
  match sizeTable[c.toNat]? with
  | some l => .fixed l
  | none => .randomFromSet

/-- `DEBUG_SUBMODE_SELECT(v)` (30_encoding.md R73). -/
def debugSubmodeSelect (cfg : Config) (v : Word) : Bool := cfg.debugSubmode.contains v

/-- The corrected value of a ReservedBitSet: bit 7 cleared (60_exceptions.md R213). -/
def correctedCtrl (v : Word) : Word := v &&& 0xFF7F

/-- `decode_ctrl(v)`: fails on bit 7 and on nothing else (40_register_decoder.md R103, R111). -/
def decodeCtrl (cfg : Config) (v : Word) : Except Err ControlOptions :=
  if reservedBit v then
    .error (.reservedBitSet (correctedCtrl v))
  else
    .ok {
      enable := enableBit v
      start := startBit v
      size := sizePolicy (sizeCode v)
      ptype := cfg.ptMap.get (packetTypeCode v).toFin
      ipgBits := cfg.ipgMap.get (ipgCode v).toFin
      mode := modeOf v
      unassigned := v &&& unassignedMask
      debugSub := debugSubmodeSelect cfg v }

/-- The named fields of decoded ControlOptions (40_register_decoder.md R106). -/
inductive CtrlFieldName where
  | enable | start | sizePolicy | packetType | interPacketGap | mode | channelSelect | managementOption
deriving DecidableEq, Repr

/-- What reading a named field gives (40_register_decoder.md R106). -/
inductive CtrlFieldValue where
  | bit (b : Bool)
  | size (p : SizePolicy)
  | packetType (t : PacketType)
  | gap (bits : Nat)
  | mode (m : Mode)
deriving DecidableEq, Repr

/-- `ctrl_field(o, f)`: chsel and mopt always fail (40_register_decoder.md R106, 30_encoding.md R72; log 24). -/
def ctrlField (o : ControlOptions) : CtrlFieldName → Except Err CtrlFieldValue
  | .enable => .ok (.bit o.enable)
  | .start => .ok (.bit o.start)
  | .sizePolicy => .ok (.size o.size)
  | .packetType => .ok (.packetType o.ptype)
  | .interPacketGap => .ok (.gap o.ipgBits)
  | .mode => .ok (.mode o.mode)
  | .channelSelect => .error (.unimplementedOption .channelSelect .none)
  | .managementOption => .error (.unimplementedOption .managementOption .none)

/-- `MAC_PREFIX` and a final octet with high nibble 0xF (30_encoding.md R74). -/
def macOf (low : BitVec 4) : Mac := ⟨0x00, 0x03, 0x19, 0xFF, 0xFF, 0xF0 ||| low.setWidth 8⟩

/-- The decoded view of a DATA value (40_register_decoder.md R107). -/
structure DataOptions where
  dst : Mac
  src : Mac
  fill : Byte
deriving DecidableEq, Repr

/-- `decode_data(v)`: never fails (40_register_decoder.md R107). -/
def decodeData (v : Word) : DataOptions where
  dst := macOf (nibble v 3)
  src := macOf (nibble v 2)
  fill := byte v 0

/-- The number of an error (60_exceptions.md R210, decision D23). -/
def Err.code : Err → Nat
  | .literalParseError _ _ => 1
  | .reservedBitSet _ => 2
  | .notEnabledOrStarted _ _ => 3
  | .unimplementedOption _ _ => 4
  | .transportError _ => 5

/-- Codes 1 to 4 are decode and plan-resolution failures, code 5 is the only runtime failure (60_exceptions.md R211). -/
def Err.kind (e : Err) : ErrClass := if e.code = 5 then .runtime else .decode

end Sys2Proof.Machine
end

