-- ==== Sys2Proof/Machine/Flags.lean ====
section
/-! DEFINITION. The block has no status or flag register (10_state.md R31). What it computes from single bits and
comparisons stands here: the run test, the stop test, the jumbo attribute, and plan resolution, which uses the run
test. -/

namespace Sys2Proof.Machine

/-- `should_run(o) = o.enable ∧ o.start` (40_register_decoder.md R104). -/
def shouldRun (o : ControlOptions) : Bool := o.enable && o.start

/-- `STOP(o)` (42_generator_fsm.md R156, decision D13). -/
def stopTest (rule : StopRule) (o : ControlOptions) : Bool :=
  match rule with
  | .bothClear => !(o.enable || o.start)
  | .eitherClear => !(o.enable && o.start)

/-- The jumbo attribute of a frame size (30_encoding.md R76; 90_conflicts.md C3). No rule reads it. -/
def isJumbo (size : Nat) : Bool := 1518 < size

/-- The `Refuse` policy's test of the unassigned CTRL bits (40_register_decoder.md R109). -/
def refusesUnassigned (cfg : Config) (o : ControlOptions) : Bool :=
  cfg.unassignedPolicy == .refuse && o.unassigned != 0

/-- `resolve_plan(vc, vd)`: ReservedBitSet, then NotEnabledOrStarted, then the Refuse form of UnimplementedOption
(40_register_decoder.md R109, R110). -/
def resolvePlan (cfg : Config) (vc vd : Word) : Except Err Plan :=
  match decodeCtrl cfg vc with
  | .error e => .error e
  | .ok o =>
    if !shouldRun o then
      .error (.notEnabledOrStarted o.enable o.start)
    else if refusesUnassigned cfg o then
      .error (.unimplementedOption .unassignedCtrlBits (.bits o.unassigned))
    else
      let d := decodeData vd
      .ok {
        size := o.size
        ptype := o.ptype
        ipgBits := o.ipgBits
        mode := o.mode
        dst := d.dst
        src := d.src
        fill := d.fill
        debugSub := o.debugSub }

end Sys2Proof.Machine
end

