-- ==== Sys2Proof/Machine/Synth.lean ====
section
/-! DEFINITION. The frame synthesizer (41_frame_synthesizer.md R130 to R143): a function of the plan, of the draws it
takes, and of the parameters RANDOM_SIZE_ORDER and LENGTH_BYTE_ORDER. -/

namespace Sys2Proof.Machine

/-- `draw_size()`: the next size draw, supplied or free (00_scope.md R11; log 7). -/
def DrawSource.drawSize (r : DrawSource) : Fin 4 × DrawSource :=
  match r.sizes with
  | i :: rest => (i, { r with sizes := rest })
  | [] => (Config.freeSizeDraw r.drawn, { r with drawn := r.drawn + 1 })

/-- `draw_byte()`: the next byte draw, supplied or free (00_scope.md R11; log 7). -/
def DrawSource.drawByte (r : DrawSource) : Byte × DrawSource :=
  match r.bytes with
  | b :: rest => (b, { r with bytes := rest })
  | [] => (Config.freeByteDraw r.drawn, { r with drawn := r.drawn + 1 })

/-- `n` byte draws, in order (41_frame_synthesizer.md R135, R142). -/
def DrawSource.drawBytes : Nat → DrawSource → List Byte × DrawSource
  | 0, r => ([], r)
  | n + 1, r =>
    let first := r.drawByte
    let rest := DrawSource.drawBytes n first.2
    (first.1 :: rest.1, rest.2)

/-- Step 1: this frame's size `L` (41_frame_synthesizer.md R131). -/
def frameSize (cfg : Config) (size : SizePolicy) (r : DrawSource) : Nat × DrawSource :=
  match size with
  | .fixed l => (l, r)
  | .randomFromSet => (cfg.randomSizeOrder.get r.drawSize.1, r.drawSize.2)

/-- Step 2: the payload length `N = L - 18` (41_frame_synthesizer.md R132). -/
def payloadLength (l : Nat) : Nat := l - lenAdjust

/-- The 2-byte length field (41_frame_synthesizer.md R134, 20_memory.md R46; log 9). -/
def lengthField (order : ByteOrder) (n : Nat) : List Byte :=
  match order with
  | .bigEndian => [BitVec.ofNat 8 (n >>> 8), BitVec.ofNat 8 n]
  | .littleEndian => [BitVec.ofNat 8 n, BitVec.ofNat 8 (n >>> 8)]

/-- Step 3: the 14 header bytes F[0..13] (41_frame_synthesizer.md R133, 20_memory.md R45). -/
def header (cfg : Config) (p : Plan) (n : Nat) : List Byte :=
  p.dst.toList ++ p.src.toList ++ lengthField cfg.lengthByteOrder n

/-- Step 4: the payload bytes F[14..] (41_frame_synthesizer.md R135 to R137). A Debug plan never comes here: `synthesize`
fails first (R138). -/
def payload (p : Plan) (n : Nat) (r : DrawSource) : List Byte × DrawSource :=
  match p.ptype with
  | .random => r.drawBytes n
  | .byteIncrement => ((List.range n).map (BitVec.ofNat 8), r)
  | .predefined => (List.replicate n p.fill, r)
  | .debug => ([], r)

/-- The unimplemented option a plan selects: the Debug packet type, tested first (60_exceptions.md R218 (2)), or the
Debug sub-mode of Single mode (41_frame_synthesizer.md R138, R139). -/
def debugError (p : Plan) : Option Err :=
  if p.ptype = .debug then some (.unimplementedOption .packetType .debug)
  else if p.debugSub && p.mode = .single then some (.unimplementedOption .debugSubMode .single)
  else none

/-- `synthesize(p)`: one frame or the failure, and the draws left (41_frame_synthesizer.md R130). A size draw is taken
before a Debug failure (R138). -/
def synthesize (cfg : Config) (p : Plan) (r : DrawSource) : Except Err Frame × DrawSource :=
  let sized := frameSize cfg p.size r
  match debugError p with
  | some e => (.error e, sized.2)
  | none =>
    let n := payloadLength sized.1
    let body := payload p n sized.2
    (.ok (header cfg p n ++ body.1), body.2)

end Sys2Proof.Machine
end

