-- ==== Sys2Proof/Machine/Ops.lean ====
section
/-! DEFINITION. The named operations of the generation driver: outputs (42_generator_fsm.md R150), register writes, END
(R152), CHECK_STOP (R153), ITERATE (R154), the run abort (60_exceptions.md R219), the start of a run, the reset event,
and taking the next input. The instructions' meanings are written over these. -/

namespace Sys2Proof.Machine

/-! ### Outputs, in the order the pseudocode produces them (00_scope.md R11) -/

/-- Append one output. -/
def State.out (s : State) (o : Output) : State := { s with outputs := s.outputs ++ [o] }

/-- `respond(r)`. -/
def State.respond (s : State) (r : Response) : State := s.out (.resp r)

/-- `emit(F)`: the frame is handed over whole, in one SEND (20_memory.md R48). -/
def State.emit (s : State) (f : Frame) : State := s.out (.send f)

/-- `report(reason, n)`. -/
def State.report (s : State) (r : Reason) (n : Nat) : State := s.out (.runEnd r n)

/-- Output GAPSTART(b) (60_exceptions.md R224). -/
def State.startGap (s : State) (b : Nat) : State := s.out (.gapStart b)

/-! ### Registers and driver fields: whole values, written in one step (20_memory.md R42) -/

/-- `REG[CTRL] <- v`. -/
def State.writeCtrl (s : State) (v : Word) : State := { s with ctrl := v }

/-- `REG[DATA] <- v`. -/
def State.writeData (s : State) (v : Word) : State := { s with data := v }

/-- `REG[LIMIT] <- l`. -/
def State.writeLimit (s : State) (l : Option Nat) : State := { s with limit := l }

/-- `s.fsm`, with the phase and plan that have meaning there. -/
def State.setFsm (s : State) (f : Fsm) : State := { s with fsm := f }

/-- `s.count <- n`. -/
def State.setCount (s : State) (n : Nat) : State := { s with count := n }

/-- `s.cancel_req <- b`. -/
def State.setCancel (s : State) (b : Bool) : State := { s with cancelReq := b }

/-- `s.stop_req <- b`. -/
def State.setStop (s : State) (b : Bool) : State := { s with stopReq := b }

/-- `s.run_limit <- l`. -/
def State.setRunLimit (s : State) (l : Option Nat) : State := { s with runLimit := l }

/-- The draws left after a synthesis. -/
def State.setRng (s : State) (r : DrawSource) : State := { s with rng := r }

/-- The inputs left after one was taken. -/
def State.setInbox (s : State) (q : List Input) : State := { s with inbox := q }

/-- `n + 1`, in a counter of COUNT_WIDTH bits where the parameter gives a width (10_state.md R27, decision D26; log 8). -/
def countNext (cfg : Config) (n : Nat) : Nat :=
  match cfg.countWidth with
  | none => n + 1
  | some w => (n + 1) % 2 ^ w

/-! ### Ending and running -/

/-- `END(reason)`: report the count and become Idle (42_generator_fsm.md R152). -/
def State.endRun (s : State) (r : Reason) : State := (s.report r s.count).setFsm .idle

/-- The run abort, "the block's trap entry" (60_exceptions.md R219): END(Failed(err)). The registers stay as they were;
there is no vector, no saved state and no return (R221). -/
def State.abortRun (s : State) (e : Err) : State := s.endRun (.failed e)

/-- A rejected register value: the error stands in the response and nothing else happens (60_exceptions.md R217). -/
def State.reject (s : State) (e : Err) : State := s.respond (.rejected e)

/-- Whether the run has reached its limit (42_generator_fsm.md R153). -/
def limitReached (limit : Option Nat) (count : Nat) : Bool :=
  match limit with
  | some n => decide (n ≤ count)
  | none => false

/-- `CHECK_STOP()`: Cancelled, then Stopped, then LimitReached (42_generator_fsm.md R153). -/
def State.checkStop (s : State) : Option Reason :=
  if s.cancelReq then some .cancelled
  else if s.stopReq then some .stopped
  else if limitReached s.runLimit s.count then some .limitReached
  else none

/-- The stop check of a loop iteration, made in continuous mode only (42_generator_fsm.md R154). -/
def State.iterationStop (s : State) (m : Mode) : Option Reason :=
  match m with
  | .continuous => s.checkStop
  | .single => none

/-- `ITERATE()` of the run with plan `p`: stop check, synthesis, emission (42_generator_fsm.md R154). -/
def State.iterate (s : State) (p : Plan) : State :=
  match s.iterationStop p.mode with
  | some r => s.endRun r
  | none =>
    match synthesize s.cfg p s.rng with
    | (.error e, r) => (s.setRng r).abortRun e
    | (.ok f, r) => ((s.setRng r).emit f).setFsm (.running .awaitSend p)

/-- The driver fields of a fresh run: count 0, no request, the limit sampled (42_generator_fsm.md R155). -/
def State.freshRun (s : State) : State :=
  (((s.setCount 0).setCancel false).setStop false).setRunLimit s.limit

/-- `WRCTRL v` in Idle: latch the value and attempt to start a run (42_generator_fsm.md R155). -/
def State.writeCtrlIdle (s : State) (v : Word) : State :=
  match resolvePlan s.cfg v s.data with
  | .error e => (s.writeCtrl v).reject e
  | .ok p => (((s.writeCtrl v).respond .accepted).freshRun).iterate p

/-- The effect of a stop value on a continuous run: at once in the gap, recorded while a frame is in flight
(42_generator_fsm.md R156, 70_reset_and_hazards.md R245). -/
def State.requestStop (s : State) (ph : Phase) : State :=
  match ph with
  | .gap => s.endRun .stopped
  | .awaitSend => s.setStop true

/-- `WRCTRL v` in Running: latch the value; a stop value stops a continuous run (42_generator_fsm.md R156). -/
def State.writeCtrlRunning (s : State) (ph : Phase) (p : Plan) (v : Word) : State :=
  match decodeCtrl s.cfg v with
  | .error e => (s.writeCtrl v).reject e
  | .ok o =>
    if p.mode = .continuous ∧ stopTest s.cfg.stopRule o = true then
      ((s.writeCtrl v).respond .ack).requestStop ph
    else (s.writeCtrl v).respond .ack

/-- `WRCTRL v`: the control point decides which rule performs it (42_generator_fsm.md R151; log 14). -/
def State.hostWriteCtrl (s : State) (v : Word) : State :=
  match s.fsm with
  | .idle => s.writeCtrlIdle v
  | .running ph p => s.writeCtrlRunning ph p v

/-- `WRDATA v` (42_generator_fsm.md R157). -/
def State.hostWriteData (s : State) (v : Word) : State := (s.writeData v).respond .ack

/-- `SETLIMIT l` (42_generator_fsm.md R158). -/
def State.hostSetLimit (s : State) (l : Option Nat) : State := (s.writeLimit l).respond .ack

/-- `CANCEL`: nothing in Idle (42_generator_fsm.md R159), recorded while a frame of a continuous run is in flight (R160),
the end of the run in the gap (R161). -/
def State.hostCancel (s : State) : State :=
  match s.fsm with
  | .idle => s.respond .ack
  | .running .awaitSend p =>
    match p.mode with
    | .continuous => (s.respond .ack).setCancel true
    | .single => s.respond .ack
  | .running .gap _ => (s.respond .ack).endRun .cancelled

/-- After an accepted frame of the run with plan `p`: the run ends, or the pacing delay begins (42_generator_fsm.md
R162). -/
def State.afterFrame (s : State) (p : Plan) : State :=
  match p.mode with
  | .single => s.endRun .completed
  | .continuous =>
    match s.checkStop with
    | some r => s.endRun r
    | none => (s.setFsm (.running .gap p)).startGap p.ipgBits

/-- `SENDDONE(Ok)` in Running.AwaitSend: count the frame (42_generator_fsm.md R162). -/
def State.frameAccepted (s : State) (p : Plan) : State :=
  (s.setCount (countNext s.cfg s.count)).afterFrame p

/-! ### Reset, and taking the next input -/

/-- The reset event: every piece of the block's state at its reset value, whatever run was in progress, and no output
(70_reset_and_hazards.md R240, R241). The parameters, the randomness input, the inputs to come and the outputs made are
not state of the block and stay (log 13, log 20). -/
def State.resetBlock (s : State) : State :=
  { State.reset with cfg := s.cfg, rng := s.rng, inbox := s.inbox, outputs := s.outputs }

/-- The next input in the environment's order, and the block with the rest of them to come (20_memory.md R49). -/
def State.takeInput (s : State) : Option (Input × State) :=
  match s.inbox with
  | [] => none
  | i :: rest => some (i, s.setInbox rest)

/-- The instruction an event is at this control point. -/
def State.decodeEvent (s : State) (e : Event) : Except DecodeError Instr := decode s.fsm.isRunning e

/-- The gap's intended duration in seconds, `b / LINK_RATE_BPS` (60_exceptions.md R224). No rule depends on it: "the
model has no time" (log 17). -/
def intendedGap (b : Nat) : ℚ := (b : ℚ) / (Config.linkRateBps : ℕ)

end Sys2Proof.Machine
end

