-- ==== Sys2Proof/Machine/Environment.lean ====
section
/-! DEFINITION. The meanings of the environment's events: the transport's answers and the pacing timer's expiry
(42_generator_fsm.md R162 to R164). Outside the control point that admits one, "the environment has no such move"
(R151): it is refused by name (log 10). -/

namespace Sys2Proof.Machine

/-- SENDDONE_OK: the transport accepted the frame in flight (42_generator_fsm.md R162). -/
def execSendDoneOk (s : State) : Host.Outcome State Fault Refusal :=
  match s.fsm with
  | .running .awaitSend p => .next (s.frameAccepted p)
  | .running .gap _ => .refused .sendDoneNotAdmitted
  | .idle => .refused .sendDoneNotAdmitted

/-- SENDDONE_ERR: the transport failed to send; the run aborts (42_generator_fsm.md R163). -/
def execSendDoneErr (e : TransportInfo) (s : State) : Host.Outcome State Fault Refusal :=
  match s.fsm with
  | .running .awaitSend _ => .next (s.abortRun (.transportError e))
  | .running .gap _ => .refused .sendDoneNotAdmitted
  | .idle => .refused .sendDoneNotAdmitted

/-- GAPELAPSED: the pacing delay is over, the next iteration (42_generator_fsm.md R164). -/
def execGapElapsed (s : State) : Host.Outcome State Fault Refusal :=
  match s.fsm with
  | .running .gap p => .next (s.iterate p)
  | .running .awaitSend _ => .refused .gapElapsedNotAdmitted
  | .idle => .refused .gapElapsedNotAdmitted

end Sys2Proof.Machine
end

