-- ==== Sys2Proof/Machine/HostOps.lean ====
section
/-! DEFINITION. The meanings of the other host operations: WRDATA, SETLIMIT, CANCEL (42_generator_fsm.md R157 to R161). -/

namespace Sys2Proof.Machine

/-- WRDATA: every value is valid, in every control point (42_generator_fsm.md R157). -/
def execWrData (dst src : BitVec 4) (fill : Byte) (s : State) : Host.Outcome State Fault Refusal :=
  .next (s.hostWriteData (dataWord dst src fill))

/-- SETLIMIT, in every control point (42_generator_fsm.md R158). -/
def execSetLimit (l : Option Nat) (s : State) : Host.Outcome State Fault Refusal :=
  .next (s.hostSetLimit l)

/-- CANCEL (42_generator_fsm.md R159, R160, R161). -/
def execCancel (s : State) : Host.Outcome State Fault Refusal := .next s.hostCancel

end Sys2Proof.Machine
end

