-- ==== Sys2Proof/Machine/HostWrites.lean ====
section
/-! DEFINITION. The meanings of the WRCTRL rows. Each assembles the CTRL value from its row's operands (30_encoding.md
R60, R77, R78) and performs the write: what the write does follows from the value and the control point
(42_generator_fsm.md R151, R155, R156; log 14). -/

namespace Sys2Proof.Machine

/-- The outcome of a host write of CTRL. -/
def ctrlWrite (v : Word) (s : State) : Host.Outcome State Fault Refusal := .next (s.hostWriteCtrl v)

/-! ### The rows of Idle (42_generator_fsm.md R155) -/

/-- WRCTRL.CTRL_RESERVED: bit 7 set. -/
def execCtrlReserved (other : Word) (s : State) : Host.Outcome State Fault Refusal :=
  ctrlWrite (0x0080 ||| other) s

/-- WRCTRL.CTRL_NOTRUN_00: neither enable nor start. -/
def execCtrlNotrun00 (other : Word) (s : State) : Host.Outcome State Fault Refusal :=
  ctrlWrite (0x0000 ||| other) s

/-- WRCTRL.CTRL_NOTRUN_01: enable without start. -/
def execCtrlNotrun01 (other : Word) (s : State) : Host.Outcome State Fault Refusal :=
  ctrlWrite (0x0001 ||| other) s

/-- WRCTRL.CTRL_NOTRUN_10: start without enable. -/
def execCtrlNotrun10 (other : Word) (s : State) : Host.Outcome State Fault Refusal :=
  ctrlWrite (0x0002 ||| other) s

/-- WRCTRL.CTRL_START_DEBUG: packet-type code 3 (under the default PT_MAP, Debug: 41_frame_synthesizer.md R138). -/
def execCtrlStartDebug (size : BitVec 3) (ipg : BitVec 2) (mode : Mode) (unassigned : Word) (s : State) :
    Host.Outcome State Fault Refusal :=
  ctrlWrite (startWord (0x0303 ||| modeBits mode) size ipg unassigned) s

/-- WRCTRL.CTRL_START_CONT_RANDOM: packet-type code 0, mode 0. -/
def execCtrlStartContRandom (size : BitVec 3) (ipg : BitVec 2) (unassigned : Word) (s : State) :
    Host.Outcome State Fault Refusal :=
  ctrlWrite (startWord 0x0003 size ipg unassigned) s

/-- WRCTRL.CTRL_START_CONT_INCR: packet-type code 1, mode 0. -/
def execCtrlStartContIncr (size : BitVec 3) (ipg : BitVec 2) (unassigned : Word) (s : State) :
    Host.Outcome State Fault Refusal :=
  ctrlWrite (startWord 0x0103 size ipg unassigned) s

/-- WRCTRL.CTRL_START_CONT_PREDEF: packet-type code 2, mode 0. -/
def execCtrlStartContPredef (size : BitVec 3) (ipg : BitVec 2) (unassigned : Word) (s : State) :
    Host.Outcome State Fault Refusal :=
  ctrlWrite (startWord 0x0203 size ipg unassigned) s

/-- WRCTRL.CTRL_START_SINGLE_RANDOM: packet-type code 0, mode 1. -/
def execCtrlStartSingleRandom (size : BitVec 3) (ipg : BitVec 2) (unassigned : Word) (s : State) :
    Host.Outcome State Fault Refusal :=
  ctrlWrite (startWord 0x2003 size ipg unassigned) s

/-- WRCTRL.CTRL_START_SINGLE_INCR: packet-type code 1, mode 1. -/
def execCtrlStartSingleIncr (size : BitVec 3) (ipg : BitVec 2) (unassigned : Word) (s : State) :
    Host.Outcome State Fault Refusal :=
  ctrlWrite (startWord 0x2103 size ipg unassigned) s

/-- WRCTRL.CTRL_START_SINGLE_PREDEF: packet-type code 2, mode 1. -/
def execCtrlStartSinglePredef (size : BitVec 3) (ipg : BitVec 2) (unassigned : Word) (s : State) :
    Host.Outcome State Fault Refusal :=
  ctrlWrite (startWord 0x2203 size ipg unassigned) s

/-! ### The rows of Running (42_generator_fsm.md R156) -/

/-- WRCTRL.CTRLR_RESERVED: bit 7 set during a run. -/
def execCtrlrReserved (enable start : Bool) (other : Word) (s : State) : Host.Outcome State Fault Refusal :=
  ctrlWrite (0x0080 ||| runBits enable start ||| other) s

/-- WRCTRL.CTRLR_STOP: neither enable nor start during a run. -/
def execCtrlrStop (other : Word) (s : State) : Host.Outcome State Fault Refusal :=
  ctrlWrite (0x0000 ||| other) s

/-- WRCTRL.CTRLR_NOSTOP_01: enable without start during a run. -/
def execCtrlrNostop01 (other : Word) (s : State) : Host.Outcome State Fault Refusal :=
  ctrlWrite (0x0001 ||| other) s

/-- WRCTRL.CTRLR_NOSTOP_10: start without enable during a run. -/
def execCtrlrNostop10 (other : Word) (s : State) : Host.Outcome State Fault Refusal :=
  ctrlWrite (0x0002 ||| other) s

/-- WRCTRL.CTRLR_NOSTOP_11: enable and start during a run; no restart (70_reset_and_hazards.md R244). -/
def execCtrlrNostop11 (other : Word) (s : State) : Host.Outcome State Fault Refusal :=
  ctrlWrite (0x0003 ||| other) s

end Sys2Proof.Machine
end

