-- ==== Sys2Proof/Machine/Dispatch.lean ====
section
/-! DEFINITION. One arm per instruction, each one direct call of its meaning. -/

namespace Sys2Proof.Machine

def exec (i : Instr) (s : State) : Host.Outcome State Fault Refusal :=
  match i with
  | .ctrlReserved other => Sys2Proof.Machine.execCtrlReserved other s
  | .ctrlNotrun00 other => Sys2Proof.Machine.execCtrlNotrun00 other s
  | .ctrlNotrun01 other => Sys2Proof.Machine.execCtrlNotrun01 other s
  | .ctrlNotrun10 other => Sys2Proof.Machine.execCtrlNotrun10 other s
  | .ctrlStartDebug size ipg mode unassigned => Sys2Proof.Machine.execCtrlStartDebug size ipg mode unassigned s
  | .ctrlStartContRandom size ipg unassigned => Sys2Proof.Machine.execCtrlStartContRandom size ipg unassigned s
  | .ctrlStartContIncr size ipg unassigned => Sys2Proof.Machine.execCtrlStartContIncr size ipg unassigned s
  | .ctrlStartContPredef size ipg unassigned => Sys2Proof.Machine.execCtrlStartContPredef size ipg unassigned s
  | .ctrlStartSingleRandom size ipg unassigned => Sys2Proof.Machine.execCtrlStartSingleRandom size ipg unassigned s
  | .ctrlStartSingleIncr size ipg unassigned => Sys2Proof.Machine.execCtrlStartSingleIncr size ipg unassigned s
  | .ctrlStartSinglePredef size ipg unassigned => Sys2Proof.Machine.execCtrlStartSinglePredef size ipg unassigned s
  | .ctrlrReserved enable start other => Sys2Proof.Machine.execCtrlrReserved enable start other s
  | .ctrlrStop other => Sys2Proof.Machine.execCtrlrStop other s
  | .ctrlrNostop01 other => Sys2Proof.Machine.execCtrlrNostop01 other s
  | .ctrlrNostop10 other => Sys2Proof.Machine.execCtrlrNostop10 other s
  | .ctrlrNostop11 other => Sys2Proof.Machine.execCtrlrNostop11 other s
  | .wrData dst src fill => Sys2Proof.Machine.execWrData dst src fill s
  | .setLimit l => Sys2Proof.Machine.execSetLimit l s
  | .cancel => Sys2Proof.Machine.execCancel s
  | .sendDoneOk => Sys2Proof.Machine.execSendDoneOk s
  | .sendDoneErr e => Sys2Proof.Machine.execSendDoneErr e s
  | .gapElapsed => Sys2Proof.Machine.execGapElapsed s

end Sys2Proof.Machine
end

