-- ==== Sys2Proof/Machine/Step.lean ====
section
/-! DEFINITION. One step of the block: take the next input in the environment's order and perform it whole
(20_memory.md R49, 42_generator_fsm.md R150). -/

namespace Sys2Proof.Machine

/-- Perform an event: decode it at this control point and run the instruction. -/
def performEvent (e : Event) (s : State) : Host.Outcome State Fault Refusal :=
  match s.decodeEvent e with
  | .ok i => exec i s
  | .error err => .refused (.undecodable err)

/-- One step. With nothing to take, the block keeps all state while waiting (60_exceptions.md R229, 42_generator_fsm.md
R171; log 11). The reset event is taken like any input (70_reset_and_hazards.md R240; log 20). -/
def step (s : State) : Host.Outcome State Fault Refusal :=
  match s.takeInput with
  | none => .next s
  | some (.reset, s') => .next s'.resetBlock
  | some (.event e, s') => performEvent e s'

/-- `s` with a host write of CTRL as the next input: the write of the value whose bits are `w` (log 1, log 15). A `w`
of more than 16 bits is no register value (30_encoding.md R62) and adds nothing. -/
def State.withFetchWord (s : State) (_nbits w : Nat) : State :=
  match registerValue w with
  | .ok v => s.setInbox (.event (.wrCtrl v) :: s.inbox)
  | .error _ => s

end Sys2Proof.Machine
end

