-- ==== Sys2Proof/Machine/Literal.lean ====
section
/-! DEFINITION. Host register literals (45_host_literals.md R190 to R196): the host-side parser of the 16-bit values it
writes. It is outside the block: "A `LiteralParseError` never reaches the block". -/

namespace Sys2Proof.Machine

/-- The radixes a prefix selects (45_host_literals.md R192). -/
inductive Radix where
  | hexadecimal | octal | binary | decimal
deriving DecidableEq, Repr

/-- The radix as a number. -/
def Radix.base : Radix → Nat
  | .hexadecimal => 16
  | .octal => 8
  | .binary => 2
  | .decimal => 10

/-- A digit-group separator: `_` or the apostrophe, character 39 (45_host_literals.md R191). -/
def isSeparator (c : Char) : Bool := c = '_' || c.toNat = 39

/-- Every separator removed, wherever it stands (45_host_literals.md R191). -/
def stripSeparators (cs : List Char) : List Char := cs.filter (fun c => !isSeparator c)

/-- The radix a literal's first characters select, and its digits. Only lower-case prefixes count
(45_host_literals.md R192). -/
def splitRadix : List Char → Radix × List Char
  | '0' :: 'x' :: digits => (.hexadecimal, digits)
  | '0' :: 'o' :: digits => (.octal, digits)
  | '0' :: 'b' :: digits => (.binary, digits)
  | digits => (.decimal, digits)

/-- The value of a character as a digit of a radix up to 16 (45_host_literals.md R193). -/
def digitValue (c : Char) : Option Nat :=
  let n := c.toNat
  if 48 ≤ n ∧ n ≤ 57 then some (n - 48)
  else if 97 ≤ n ∧ n ≤ 102 then some (n - 87)
  else if 65 ≤ n ∧ n ≤ 70 then some (n - 55)
  else none

/-- The value of a character as a digit of radix `base` (45_host_literals.md R193). -/
def digitIn (base : Nat) (c : Char) : Option Nat :=
  match digitValue c with
  | some d => if d < base then some d else none
  | none => none

/-- The natural number that digits denote after the value `acc`, or `none` where one is no digit of the radix. -/
def readDigits (base : Nat) : Nat → List Char → Option Nat
  | acc, [] => some acc
  | acc, c :: cs =>
    match digitIn base c with
    | some d => readDigits base (acc * base + d) cs
    | none => none

/-- The natural number a digit string denotes; an empty one denotes none (45_host_literals.md R193). -/
def numeral (base : Nat) (digits : List Char) : Option Nat :=
  match digits with
  | [] => none
  | c :: cs => readDigits base 0 (c :: cs)

/-- `parse_literal` over characters (45_host_literals.md R190). The error holds the text as it was received and the
radix its prefix selected (R195). -/
def parseLiteralChars (cs : List Char) : Except Err Word :=
  let split := splitRadix (stripSeparators cs)
  match numeral split.1.base split.2 with
  | some n =>
    if n ≤ 0xFFFF then .ok (BitVec.ofNat 16 n)
    else .error (.literalParseError (String.ofList cs) split.1.base)
  | none => .error (.literalParseError (String.ofList cs) split.1.base)

/-- `parse_literal(s)` (45_host_literals.md R190). -/
def parseLiteral (s : String) : Except Err Word := parseLiteralChars s.toList

end Sys2Proof.Machine
end

