-- ==== Sys2Proof/Machine/Script.lean ====
section
/-! DEFINITION. The host's side of the register port: the script syntax and its pseudo-operations (30_encoding.md R81),
and the host's inputs (45_host_literals.md R197). Pure functions outside the block, which give the events the block
takes. -/

namespace Sys2Proof.Machine

/-- One line of a script (30_encoding.md R81). -/
inductive ScriptLine where
  | wrCtrl (v : Word)
  | wrData (v : Word)
  | setLimit (l : Option Nat)
  | cancel
  | sendOk
  | sendErr (text : TransportInfo)
  | gapElapsed
  /-- `RUN <ctrl>, <data>`. -/
  | runBoth (ctrl data : Word)
  /-- `RUN <ctrl>`: "absent DATA ≡ all-zero Register". -/
  | runCtrl (ctrl : Word)
  /-- `STOP`. -/
  | stop
  /-- A line with nothing but space or a comment. -/
  | blank
deriving DecidableEq, Repr

/-- Why a line is no line of the syntax. The spec names the literal's error only; the other is the model's (DESIGN CHOICE,
log 27). -/
inductive ScriptError where
  | literal (e : Err)
  | notALine (text : String)
deriving DecidableEq, Repr

/-- The events a line stands for, pseudo-operations expanded (30_encoding.md R81). -/
def ScriptLine.expand : ScriptLine → List Event
  | .wrCtrl v => [.wrCtrl v]
  | .wrData v => [.wrData v]
  | .setLimit l => [.setLimit l]
  | .cancel => [.cancel]
  | .sendOk => [.sendDoneOk]
  | .sendErr e => [.sendDoneErr e]
  | .gapElapsed => [.gapElapsed]
  | .runBoth c d => [.wrData d, .wrCtrl c]
  | .runCtrl c => [.wrData 0x0000, .wrCtrl c]
  | .stop => [.wrCtrl 0x0000]
  | .blank => []

/-- Space between the words of a line (DESIGN CHOICE, log 19: a space or a tab). -/
def isBlank (c : Char) : Bool := c = ' ' || c.toNat = 9

/-- Without space at either end. -/
def trimBlank (cs : List Char) : List Char :=
  ((cs.dropWhile isBlank).reverse.dropWhile isBlank).reverse

/-- `;` starts a comment (30_encoding.md R81). -/
def withoutComment (cs : List Char) : List Char := cs.takeWhile (· ≠ ';')

/-- A line's operation word and the operand text after it. -/
def splitWord (cs : List Char) : List Char × List Char :=
  let line := trimBlank cs
  (line.takeWhile (fun c => !isBlank c), trimBlank (line.dropWhile (fun c => !isBlank c)))

/-- A register operand: a literal (30_encoding.md R81). -/
def literalOperand (build : Word → ScriptLine) (cs : List Char) : Except ScriptError ScriptLine :=
  match parseLiteralChars cs with
  | .ok v => .ok (build v)
  | .error e => .error (.literal e)

/-- SETLIMIT's operand: a decimal number or `none` (30_encoding.md R81). -/
def limitOperand (line cs : List Char) : Except ScriptError ScriptLine :=
  if cs = ['n', 'o', 'n', 'e'] then .ok (.setLimit none)
  else
    match numeral 10 cs with
    | some n => .ok (.setLimit (some n))
    | none => .error (.notALine (String.ofList line))

/-- RUN's operands: a CTRL literal, and after a comma a DATA literal (30_encoding.md R81). DESIGN CHOICE (log 26): the
CTRL literal is parsed first, and its error is the one reported. DESIGN CHOICE (log 27): with a comma the DATA operand is
not absent, and an empty one fails as a literal. -/
def runOperand (cs : List Char) : Except ScriptError ScriptLine :=
  let first := trimBlank (cs.takeWhile (· ≠ ','))
  match cs.dropWhile (· ≠ ',') with
  | [] => literalOperand .runCtrl first
  | _ :: rest =>
    match parseLiteralChars first with
    | .ok c => literalOperand (.runBoth c) (trimBlank rest)
    | .error e => .error (.literal e)

/-- A line that takes no operand; with one it is no line (DESIGN CHOICE, log 27). -/
def bareLine (line operand : List Char) (l : ScriptLine) : Except ScriptError ScriptLine :=
  if operand = [] then .ok l else .error (.notALine (String.ofList line))

/-- One line of a script, its operation told by its first word (30_encoding.md R81). DESIGN CHOICE (log 27), where the
spec is silent: SENDERR's text may be empty, so that a bare SENDERR is a transport error with the empty text, while the
other operations that take an operand fail without one; the words are told in upper case only. -/
def parseLineChars (line : List Char) : Except ScriptError ScriptLine :=
  let words := splitWord (withoutComment line)
  match words.1 with
  | [] => .ok .blank
  | ['W', 'R', 'C', 'T', 'R', 'L'] => literalOperand .wrCtrl words.2
  | ['W', 'R', 'D', 'A', 'T', 'A'] => literalOperand .wrData words.2
  | ['S', 'E', 'T', 'L', 'I', 'M', 'I', 'T'] => limitOperand line words.2
  | ['C', 'A', 'N', 'C', 'E', 'L'] => bareLine line words.2 .cancel
  | ['S', 'E', 'N', 'D', 'O', 'K'] => bareLine line words.2 .sendOk
  | ['S', 'E', 'N', 'D', 'E', 'R', 'R'] => .ok (.sendErr (String.ofList words.2))
  | ['G', 'A', 'P', 'E', 'L', 'A', 'P', 'S', 'E', 'D'] => bareLine line words.2 .gapElapsed
  | ['R', 'U', 'N'] => runOperand words.2
  | ['S', 'T', 'O', 'P'] => bareLine line words.2 .stop
  | _ => .error (.notALine (String.ofList line))

/-- The line of a string. -/
def parseLine (s : String) : Except ScriptError ScriptLine := parseLineChars s.toList

/-- The events of a whole script, line by line. DESIGN CHOICE (log 26): a script with a line that fails gives the error
of the first such line and no event of any line. -/
def assemble : List String → Except ScriptError (List Event)
  | [] => .ok []
  | l :: ls =>
    match parseLine l with
    | .error e => .error e
    | .ok line =>
      match assemble ls with
      | .error e => .error e
      | .ok es => .ok (line.expand ++ es)

/-- The host's inputs: a CTRL literal and an optional DATA literal (45_host_literals.md R197). The events it sends to
start one run; a literal that fails to parse is never written. An absent DATA is written as 0 (R108). DESIGN CHOICE
(log 26), where the spec is silent: the CTRL literal is parsed first, and of two that fail only its error is reported;
where either fails the host sends no event at all, so the other, though it parses, is not written. -/
def hostRun (ctrl : String) (data : Option String) : Except Err (List Event) :=
  match parseLiteral ctrl with
  | .error e => .error e
  | .ok c =>
    match data with
    | none => .ok (ScriptLine.expand (.runCtrl c))
    | some text =>
      match parseLiteral text with
      | .error e => .error e
      | .ok d => .ok (ScriptLine.expand (.runBoth c d))

/-- A script's events as inputs of the block. -/
def State.withEvents (s : State) (es : List Event) : State := s.setInbox (s.inbox ++ es.map Input.event)

end Sys2Proof.Machine
end

