-- ==== Sys2Proof/Safety.lean ====
section
/-! DEFINITION. What claims about the block are said in: a legal plan and frame, the invariant of the driver, the
conversation that a history of outputs is, and which instruction each control point admits. -/

namespace Sys2Proof.Machine

/-! ### Frames, written out from the spec and not from the synthesizer -/

/-- The length field of payload length `n` (41_frame_synthesizer.md R134). -/
def lengthBytes (order : ByteOrder) (n : Nat) : List Byte :=
  match order with
  | .bigEndian => [BitVec.ofNat 8 (n / 256), BitVec.ofNat 8 (n % 256)]
  | .littleEndian => [BitVec.ofNat 8 (n % 256), BitVec.ofNat 8 (n / 256)]

/-- The 14 header bytes: the two addresses of 30_encoding.md R74 and the length field of 41_frame_synthesizer.md R134. -/
def headerBytes (order : ByteOrder) (dst src : BitVec 4) (n : Nat) : List Byte :=
  [0x00, 0x03, 0x19, 0xFF, 0xFF, 0xF0 ||| dst.setWidth 8,
   0x00, 0x03, 0x19, 0xFF, 0xFF, 0xF0 ||| src.setWidth 8] ++ lengthBytes order n

/-- The payload of the ByteIncrement policy: octet `i` is `i mod 256` (41_frame_synthesizer.md R136). -/
def incrementBytes (n : Nat) : List Byte := (List.range n).map (fun i => BitVec.ofNat 8 (i % 256))

/-- A frame the block may emit: two addresses with the prefix, the length field of one of the table's sizes, and that
many payload bytes (41_frame_synthesizer.md R133, R134, R140, R143). -/
def legalFrame (order : ByteOrder) (f : Frame) : Prop :=
  ∃ l ∈ sizeTable, ∃ (dst src : BitVec 4) (body : List Byte),
    body.length = l - 18 ∧ f = headerBytes order dst src (l - 18) ++ body

/-! ### The driver's invariant -/

/-- A plan of a run that has emitted a frame: a documented size policy and gap, addresses with the prefix, and no
unimplemented option (10_state.md R26, 30_encoding.md R74, 41_frame_synthesizer.md R138, R139). -/
def Plan.legal (p : Plan) : Prop :=
  (p.size = .randomFromSet ∨ ∃ l ∈ sizeTable, p.size = .fixed l) ∧
  p.ipgBits ∈ ipgSet ∧
  (∃ d, p.dst = macOf d) ∧ (∃ d, p.src = macOf d) ∧
  p.ptype ≠ .debug ∧ ¬(p.debugSub = true ∧ p.mode = .single)

/-- What holds between two steps: the parameters are well formed, the running plan is legal, the gap exists only in
continuous mode and holds no recorded request, a single-mode run records no request, a continuous run is below its
limit, and every output so far is a legal frame, a documented gap, or another kind of output. -/
structure State.Inv (s : State) : Prop where
  cfgOk : s.cfg.wellFormed = true
  planOk : ∀ ph p, s.fsm = .running ph p → p.legal
  gapOk : ∀ p, s.fsm = .running .gap p → p.mode = .continuous ∧ s.cancelReq = false ∧ s.stopReq = false
  singleOk : ∀ ph p, s.fsm = .running ph p → p.mode = .single → s.cancelReq = false ∧ s.stopReq = false
  limitOk : ∀ ph p n, s.fsm = .running ph p → p.mode = .continuous → s.runLimit = some n → s.count < n
  framesOk : ∀ f, Output.send f ∈ s.outputs → legalFrame s.cfg.lengthByteOrder f
  gapsOk : ∀ b, Output.gapStart b ∈ s.outputs → b ∈ ipgSet

/-! ### The conversation a history of outputs is -/

/-- Where a history of outputs leaves the conversation: no run, a run accepted that has shown nothing yet, a frame in
flight, a pacing delay (42_generator_fsm.md R150, R165, R166, R170). -/
inductive Talk where
  | quiet | accepted | inFlight | pacing
deriving DecidableEq, Repr

/-- How one output moves the conversation, or `none` where the spec lets no such output come next. -/
def Talk.next : Talk → Output → Option Talk
  | .quiet, .resp .accepted => some .accepted
  | .quiet, .resp .ack => some .quiet
  | .quiet, .resp (.rejected _) => some .quiet
  | .quiet, .send _ => none
  | .quiet, .gapStart _ => none
  | .quiet, .runEnd _ _ => none
  | .accepted, .send _ => some .inFlight
  | .accepted, .runEnd _ _ => some .quiet
  | .accepted, .resp _ => none
  | .accepted, .gapStart _ => none
  | .inFlight, .resp .accepted => none
  | .inFlight, .resp .ack => some .inFlight
  | .inFlight, .resp (.rejected _) => some .inFlight
  | .inFlight, .gapStart _ => some .pacing
  | .inFlight, .runEnd _ _ => some .quiet
  | .inFlight, .send _ => none
  | .pacing, .resp .accepted => none
  | .pacing, .resp .ack => some .pacing
  | .pacing, .resp (.rejected _) => some .pacing
  | .pacing, .send _ => some .inFlight
  | .pacing, .runEnd _ _ => some .quiet
  | .pacing, .gapStart _ => none

/-- The conversation after a whole history, from `t`. -/
def Talk.after : Talk → List Output → Option Talk
  | t, [] => some t
  | t, o :: os =>
    match t.next o with
    | some t' => Talk.after t' os
    | none => none

/-- The conversation a control point stands for. -/
def ControlPoint.talk : ControlPoint → Talk
  | .idle => .quiet
  | .awaitSend => .inFlight
  | .gap => .pacing

/-- The history is a legal conversation and leaves it where the control point says. -/
def State.Conversing (s : State) : Prop := Talk.after .quiet s.outputs = some s.controlPoint.talk

/-! ### Admission -/

/-- Whether an instruction comes from the host (42_generator_fsm.md R150). -/
def fromHost : Instr → Bool
  | .sendDoneOk => false
  | .sendDoneErr _ => false
  | .gapElapsed => false
  | .ctrlReserved _ => true
  | .ctrlNotrun00 _ => true
  | .ctrlNotrun01 _ => true
  | .ctrlNotrun10 _ => true
  | .ctrlStartDebug _ _ _ _ => true
  | .ctrlStartContRandom _ _ _ => true
  | .ctrlStartContIncr _ _ _ => true
  | .ctrlStartContPredef _ _ _ => true
  | .ctrlStartSingleRandom _ _ _ => true
  | .ctrlStartSingleIncr _ _ _ => true
  | .ctrlStartSinglePredef _ _ _ => true
  | .ctrlrReserved _ _ _ => true
  | .ctrlrStop _ => true
  | .ctrlrNostop01 _ => true
  | .ctrlrNostop10 _ => true
  | .ctrlrNostop11 _ => true
  | .wrData _ _ _ => true
  | .setLimit _ => true
  | .cancel => true

/-- The admission table (42_generator_fsm.md R151). -/
def admits (cp : ControlPoint) (i : Instr) : Bool :=
  match i with
  | .sendDoneOk => cp == .awaitSend
  | .sendDoneErr _ => cp == .awaitSend
  | .gapElapsed => cp == .gap
  | i => fromHost i

/-! ### Starts -/

/-- The size `l` of the next frame under a size policy, and the draws left: the policy's size, or one size draw, supplied
or free (30_encoding.md R65, R66, 41_frame_synthesizer.md R131; log 7). -/
def nextSize (cfg : Config) (p : SizePolicy) (r : DrawSource) (l : Nat) (r' : DrawSource) : Prop :=
  match p with
  | .fixed x => l = x ∧ r' = r
  | .randomFromSet =>
    (∃ k rest, r.sizes = k :: rest ∧ l = cfg.randomSizeOrder.get k ∧ r' = { r with sizes := rest }) ∨
    (r.sizes = [] ∧ l = cfg.randomSizeOrder.get (Config.freeSizeDraw r.drawn) ∧ r' = { r with drawn := r.drawn + 1 })

/-- `n` byte draws from `r` gave `body` and left `r'`: any `n` bytes, and the supplied ones in order where enough are
supplied (41_frame_synthesizer.md R135; log 7). -/
def drawsBytes (r : DrawSource) (n : Nat) (body : List Byte) (r' : DrawSource) : Prop :=
  body.length = n ∧ (n ≤ r.bytes.length → body = r.bytes.take n ∧ r' = { r with bytes := r.bytes.drop n })

/-- The size policy that size code `c` selects (30_encoding.md R65). -/
def tableSize (c : BitVec 3) : SizePolicy :=
  match c.toNat with
  | 0 => .fixed 64
  | 1 => .fixed 2048
  | 2 => .fixed 256
  | 3 => .fixed 4096
  | 4 => .fixed 1024
  | 5 => .fixed 1518
  | 6 => .fixed 9000
  | _ => .randomFromSet

/-- A start row of the opcode table with its operands: the CTRL value it writes, and the packet-type code and the mode
that its fixed bits hold (30_encoding.md R68, R70, R77 rows 5 to 11). -/
structure StartRow where
  instr : Instr
  value : Word
  code : Fin 4
  mode : Mode

/-- The seven start rows with size code `c`, gap code `g` and unassigned bits `u`; the Debug row stands once for each
mode, which is an operand of it. -/
def startRows (c : BitVec 3) (g : BitVec 2) (u : Word) : List StartRow := [
  ⟨.ctrlStartContRandom c g u, startWord 0x0003 c g u, 0, .continuous⟩,
  ⟨.ctrlStartContIncr c g u, startWord 0x0103 c g u, 1, .continuous⟩,
  ⟨.ctrlStartContPredef c g u, startWord 0x0203 c g u, 2, .continuous⟩,
  ⟨.ctrlStartDebug c g .continuous u, startWord 0x0303 c g u, 3, .continuous⟩,
  ⟨.ctrlStartSingleRandom c g u, startWord 0x2003 c g u, 0, .single⟩,
  ⟨.ctrlStartSingleIncr c g u, startWord 0x2103 c g u, 1, .single⟩,
  ⟨.ctrlStartSinglePredef c g u, startWord 0x2203 c g u, 2, .single⟩,
  ⟨.ctrlStartDebug c g .single u, startWord 0x2303 c g u, 3, .single⟩]

/-- The plan of a start from `s` with size code `c`, gap code `g` and the DATA register as it stands (40_register_decoder.md
R109); `sub` is whether DEBUG_SUBMODE_SELECT selects the CTRL value. -/
def startPlan (s : State) (c : BitVec 3) (g : BitVec 2) (t : PacketType) (m : Mode) (sub : Bool) : Plan where
  size := tableSize c
  ptype := t
  ipgBits := s.cfg.ipgMap.get g.toFin
  mode := m
  dst := ⟨0x00, 0x03, 0x19, 0xFF, 0xFF, 0xF0 ||| (s.data.extractLsb' 12 4).setWidth 8⟩
  src := ⟨0x00, 0x03, 0x19, 0xFF, 0xFF, 0xF0 ||| (s.data.extractLsb' 8 4).setWidth 8⟩
  fill := s.data.extractLsb' 0 8
  debugSub := sub

/-- The state after a start of a run that emitted `f`, with the draws `r` left (42_generator_fsm.md R155). -/
def startedWith (s : State) (v : Word) (p : Plan) (f : Frame) (r : DrawSource) : State :=
  { s with
    ctrl := v, fsm := .running .awaitSend p, count := 0, cancelReq := false, stopReq := false,
    runLimit := s.limit, rng := r, outputs := s.outputs ++ [.resp .accepted, .send f] }

/-- The state after a start whose run ended in the same step, before any frame (42_generator_fsm.md R155). -/
def endedAtStart (s : State) (v : Word) (why : Reason) (r : DrawSource) : State :=
  { s with
    ctrl := v, fsm := .idle, count := 0, cancelReq := false, stopReq := false,
    runLimit := s.limit, rng := r, outputs := s.outputs ++ [.resp .accepted, .runEnd why 0] }

/-- The state after a host write of CTRL that was rejected or only acknowledged (42_generator_fsm.md R155, R156). -/
def answeredWith (s : State) (v : Word) (a : Response) : State :=
  { s with ctrl := v, outputs := s.outputs ++ [.resp a] }

/-- The state after a run ended with count `n` in a step that took no host event (42_generator_fsm.md R152). -/
def endedWith (s : State) (why : Reason) (n : Nat) : State :=
  { s with count := n, fsm := .idle, outputs := s.outputs ++ [.runEnd why n] }

/-! ### Literals -/

/-- The character of the digit `d` below 16, a hexadecimal letter in either case (45_host_literals.md R193). -/
def digitChar (d : Nat) (upper : Bool) : Char :=
  Char.ofNat (if d < 10 then 48 + d else if upper then 55 + d else 87 + d)

end Sys2Proof.Machine
end

