-- ==== Sys2Proof/Certificates/Slice0/Obligations.lean ====
section
/-! DEFINITION. The statements about the block, for the provers. Each docstring names the rule or section of spec/ it
comes from; what is the model's own choice is said there with its log entry. -/

open Sys2Proof Sys2Proof.Machine

/-! ### Encoding and stepping -/

/-- 30_encoding.md section 4, opcode_table.json: decoding the encoding of a well-formed instruction, at a control
point that decodes its row, gives it back with every operand. It rests on the spec's own decisions D1, D13, D40
(92_eei_decisions.md). -/
def Obligations.DecodeOfEncodeIsTheInstruction : Prop :=
  ∀ (i : Instr) (running : Bool), i.wellFormed = true → i.decodedAt running = true →
    decode running (encode i) = .ok i

/-- 30_encoding.md section 4: an event decodes only to a well-formed instruction of its control point that encodes
back to that very event. It rests on the spec's own decisions D1, D13, D40 (92_eei_decisions.md). -/
def Obligations.EncodeOfDecodeIsTheEvent : Prop :=
  ∀ (running : Bool) (e : Event) (i : Instr), decode running e = .ok i →
    encode i = e ∧ i.wellFormed = true ∧ i.decodedAt running = true

/-- 30_encoding.md section 4 (R77, R78): exactly one class of each table matches each of the 65536 values, so every
event decodes. It rests on the spec's own decisions D1, D13 (92_eei_decisions.md). -/
def Obligations.EveryCtrlValueHasExactlyOneClass : Prop :=
  (∀ v : Word, (idleRows.filter (fun r => v &&& r.mask = r.pattern)).length = 1) ∧
  (∀ v : Word, (runningRows.filter (fun r => v &&& r.mask = r.pattern)).length = 1) ∧
  (∀ (running : Bool) (e : Event), ∃ i, decode running e = .ok i)

/-- 95_test_vectors.md sections 2 and 3: words written out there decode to the instruction they stand for, and a
number of more than 16 bits is no register value (30_encoding.md R62). That decodeTableWord reads bare bits as a CTRL
write in Idle, and not as WRDATA or a Running row, is the model's choice (log 15). It rests on the spec's own
decisions D1, D2 (92_eei_decisions.md). -/
def Obligations.WordsOfTheSpecDecodeAsWritten : Prop :=
  decode false (.wrCtrl 0x2273) = .ok (.ctrlStartSinglePredef 7 0 0) ∧
  decode false (.wrCtrl 0x0123) = .ok (.ctrlStartContIncr 2 0 0) ∧
  decode false (.wrCtrl 0x1357) = .ok (.ctrlStartDebug 5 0 .continuous 0x1004) ∧
  decode false (.wrCtrl 0x22F3) = .ok (.ctrlReserved 0x2273) ∧
  decode false (.wrCtrl 0x0002) = .ok (.ctrlNotrun10 0) ∧
  decode true (.wrCtrl 0x0000) = .ok (.ctrlrStop 0) ∧
  decode true (.wrCtrl 0x2203) = .ok (.ctrlrNostop11 0x2200) ∧
  decode false (.wrData 0x9F55) = .ok (.wrData 0x9 0xF 0x55) ∧
  decodeTableWord 16 0x0003 = some (.ctrlStartContRandom 0 0 0) ∧
  decodeTableWord 24 0x10000 = none

/-- 20_memory.md section 5, 42_generator_fsm.md section 1: a step with event `e` next is exec of the instruction that
`e` decodes to, at the state with `e` taken. It rests on the spec's own decisions D38, D40 (92_eei_decisions.md). -/
def Obligations.StepRunsTheDecodedInstruction : Prop :=
  ∀ (s : State) (e : Event) (rest : List Input) (i : Instr),
    s.inbox = .event e :: rest → decode s.fsm.isRunning e = .ok i →
    step s = exec i { s with inbox := rest }

/-- The model's choice (log 11) for 42_generator_fsm.md section 5 (holds) and 60_exceptions.md section 4 (Idle keeps
all state while waiting): a step with nothing to take changes nothing. -/
def Obligations.AStepWithNothingToTakeHolds : Prop :=
  ∀ s : State, s.inbox = [] → step s = .next s

/-- 70_reset_and_hazards.md R240: the reset event sets every piece of the block's state to its reset value, whatever
run was in progress, and produces no output. It rests on the spec's own decisions D9, D36 (92_eei_decisions.md). -/
def Obligations.ResetEventSetsEveryResetValue : Prop :=
  ∀ (s : State) (rest : List Input), s.inbox = .reset :: rest →
    ∃ t, step s = .next t ∧
      t.ctrl = 0x0000 ∧ t.data = 0x0000 ∧ t.limit = none ∧ t.fsm = .idle ∧ t.phase = none ∧ t.plan = none ∧
      t.count = 0 ∧ t.cancelReq = false ∧ t.stopReq = false ∧ t.runLimit = none ∧ t.outputs = s.outputs

/-- 10_state.md R34: the values right after reset. It rests on the spec's own decision D9 (92_eei_decisions.md). -/
def Obligations.ResetStateHoldsTheStatedValues : Prop :=
  State.reset.ctrl = 0x0000 ∧ State.reset.data = 0x0000 ∧ State.reset.limit = none ∧ State.reset.fsm = .idle ∧
  State.reset.phase = none ∧ State.reset.plan = none ∧ State.reset.count = 0 ∧ State.reset.cancelReq = false ∧
  State.reset.stopReq = false ∧ State.reset.runLimit = none

/-! ### Decoders -/

/-- 40_register_decoder.md section 2 (R103): `decode_ctrl` fails exactly on bit 7, with the corrected value, and else
gives each field as its slice of the value. The selector of the Debug sub-mode is held as the list of the values it
selects, the model's choice (log 5). It rests on the spec's own decisions D1, D2, D3, D5 (92_eei_decisions.md). -/
def Obligations.CtrlDecodingReadsTheStatedFields : Prop :=
  ∀ (cfg : Config) (v : Word),
    (v.toNat / 128 % 2 = 1 → decodeCtrl cfg v = .error (.reservedBitSet (v &&& 0xFF7F))) ∧
    (v.toNat / 128 % 2 = 0 → ∃ o, decodeCtrl cfg v = .ok o ∧
      (o.enable = true ↔ v.toNat % 2 = 1) ∧
      (o.start = true ↔ v.toNat / 2 % 2 = 1) ∧
      (v.toNat / 16 % 8 < 7 → ∃ l, sizeTable[v.toNat / 16 % 8]? = some l ∧ o.size = .fixed l) ∧
      (v.toNat / 16 % 8 = 7 → o.size = .randomFromSet) ∧
      cfg.ptMap.toList[v.toNat / 256 % 4]? = some o.ptype ∧
      cfg.ipgMap.toList[v.toNat / 1024 % 4]? = some o.ipgBits ∧
      (o.mode = .single ↔ v.toNat / 8192 % 2 = 1) ∧
      o.unassigned = v &&& 0xD00C ∧
      (o.debugSub = true ↔ v ∈ cfg.debugSubmode))

/-- 40_register_decoder.md R105: the size policy of each of the eight codes, and the set of RandomFromSet. -/
def Obligations.SizeCodesSelectTheStatedPolicies : Prop :=
  sizePolicy 0 = .fixed 64 ∧ sizePolicy 1 = .fixed 2048 ∧ sizePolicy 2 = .fixed 256 ∧ sizePolicy 3 = .fixed 4096 ∧
  sizePolicy 4 = .fixed 1024 ∧ sizePolicy 5 = .fixed 1518 ∧ sizePolicy 6 = .fixed 9000 ∧
  sizePolicy 7 = .randomFromSet ∧ randomSet = [64, 256, 1024, 1518]

/-- 40_register_decoder.md section 1 (R100, R101): nibbles and bytes are the stated shifts and masks; that byte 1 is
nibbles 3 and 2 is a corner case that R101 marks as derived. It rests on the spec's own decision D33
(92_eei_decisions.md). -/
def Obligations.NibblesAndBytesAreTheStatedSlices : Prop :=
  (∀ (v : Word) (i : Fin 4), (nibble v i).toNat = v.toNat / 2 ^ (4 * i.val) % 16) ∧
  (∀ (v : Word) (j : Fin 2), (byte v j).toNat = v.toNat / 2 ^ (8 * j.val) % 256) ∧
  (∀ v : Word, (byte v 1).toNat = (nibble v 3).toNat * 16 + (nibble v 2).toNat)

/-- 40_register_decoder.md R107: both addresses hold the fixed five octets and 0xF0 plus their nibble, the fill byte
is the low byte, and the addresses agree exactly when the nibbles do. -/
def Obligations.DataDecodingGivesTheStatedAddresses : Prop :=
  ∀ v : Word,
    decodeData v = {
      dst := ⟨0x00, 0x03, 0x19, 0xFF, 0xFF, BitVec.ofNat 8 (240 + v.toNat / 4096 % 16)⟩
      src := ⟨0x00, 0x03, 0x19, 0xFF, 0xFF, BitVec.ofNat 8 (240 + v.toNat / 256 % 16)⟩
      fill := BitVec.ofNat 8 (v.toNat % 256) } ∧
    ((decodeData v).dst = (decodeData v).src ↔ v.toNat / 4096 % 16 = v.toNat / 256 % 16)

/-- 40_register_decoder.md R109, R110: a start attempt fails with ReservedBitSet, then NotEnabledOrStarted, then,
under Refuse only, UnimplementedOption, and else gives the plan of both decoded values. It rests on the spec's own
decisions D3, D16 (92_eei_decisions.md). -/
def Obligations.PlanResolutionFollowsTheStatedPrecedence : Prop :=
  ∀ (cfg : Config) (vc vd : Word),
    (vc.toNat / 128 % 2 = 1 → resolvePlan cfg vc vd = .error (.reservedBitSet (vc &&& 0xFF7F))) ∧
    (vc.toNat / 128 % 2 = 0 → vc.toNat % 4 ≠ 3 →
      resolvePlan cfg vc vd =
        .error (.notEnabledOrStarted (decide (vc.toNat % 2 = 1)) (decide (vc.toNat / 2 % 2 = 1)))) ∧
    (vc.toNat / 128 % 2 = 0 → vc.toNat % 4 = 3 → cfg.unassignedPolicy = .refuse → vc &&& 0xD00C ≠ 0 →
      resolvePlan cfg vc vd = .error (.unimplementedOption .unassignedCtrlBits (.bits (vc &&& 0xD00C)))) ∧
    (vc.toNat / 128 % 2 = 0 → vc.toNat % 4 = 3 → (cfg.unassignedPolicy = .ignore ∨ vc &&& 0xD00C = 0) →
      ∃ o, decodeCtrl cfg vc = .ok o ∧
        resolvePlan cfg vc vd = .ok {
          size := o.size, ptype := o.ptype, ipgBits := o.ipgBits, mode := o.mode,
          dst := (decodeData vd).dst, src := (decodeData vd).src, fill := (decodeData vd).fill,
          debugSub := o.debugSub })

/-- 40_register_decoder.md R106: six named fields read back, the two undocumented ones fail by name, for every decoded
value. It rests on the spec's own decision D4 (92_eei_decisions.md). -/
def Obligations.NamedFieldsReadOrFailByName : Prop :=
  ∀ o : ControlOptions,
    ctrlField o .enable = .ok (.bit o.enable) ∧ ctrlField o .start = .ok (.bit o.start) ∧
    ctrlField o .sizePolicy = .ok (.size o.size) ∧ ctrlField o .packetType = .ok (.packetType o.ptype) ∧
    ctrlField o .interPacketGap = .ok (.gap o.ipgBits) ∧ ctrlField o .mode = .ok (.mode o.mode) ∧
    ctrlField o .channelSelect = .error (.unimplementedOption .channelSelect .none) ∧
    ctrlField o .managementOption = .error (.unimplementedOption .managementOption .none)

/-! ### Synthesis -/

/-- 41_frame_synthesizer.md section 2 (R131 to R137): a plan that selects no unimplemented option synthesizes a frame
of 14 + N bytes, N = L - 18, for the size L its policy gives, with the header, and the payload of its packet type at
every offset. The draws a Random payload takes are the model's supplied or free draws (log 7). It rests on the spec's
own decisions D18, D19, D20 (92_eei_decisions.md). -/
def Obligations.SynthesizedFramesHoldTheStatedBytes : Prop :=
  ∀ (cfg : Config) (p : Plan) (r r₁ : DrawSource) (l : Nat),
    p.ptype ≠ .debug → ¬(p.debugSub = true ∧ p.mode = .single) → nextSize cfg p.size r l r₁ →
    ∃ f g, synthesize cfg p r = (.ok f, g) ∧
      f.length = 14 + (l - 18) ∧
      f.take 14 = p.dst.toList ++ p.src.toList ++ lengthBytes cfg.lengthByteOrder (l - 18) ∧
      (p.ptype = .byteIncrement → g = r₁ ∧ ∀ i, i < l - 18 → f[14 + i]? = some (BitVec.ofNat 8 (i % 256))) ∧
      (p.ptype = .predefined → g = r₁ ∧ ∀ i, i < l - 18 → f[14 + i]? = some p.fill) ∧
      (p.ptype = .random → drawsBytes r₁ (l - 18) (f.drop 14) g)

/-- 41_frame_synthesizer.md R136, R137: in every synthesized frame the payload octet at offset `i` is `i mod 256`
under ByteIncrement and the plan's fill byte under Predefined, for every offset of the payload. -/
def Obligations.PatternPayloadsHoldTheStatedOctets : Prop :=
  ∀ (cfg : Config) (p : Plan) (r g : DrawSource) (f : Frame) (i : Nat),
    synthesize cfg p r = (.ok f, g) → 14 + i < f.length →
    (p.ptype = .byteIncrement → f[14 + i]? = some (BitVec.ofNat 8 (i % 256))) ∧
    (p.ptype = .predefined → f[14 + i]? = some p.fill)

/-- 41_frame_synthesizer.md R138, R139: a Debug plan fails, naming the packet type, and else a single-mode plan of the
Debug sub-mode fails, naming it. The size draw of step 1 has been taken, and no other. It rests on the spec's own
decisions D5, D24 (92_eei_decisions.md). -/
def Obligations.UnimplementedPlansFailAfterTheSizeDraw : Prop :=
  ∀ (cfg : Config) (p : Plan) (r r₁ : DrawSource) (l : Nat), nextSize cfg p.size r l r₁ →
    (p.ptype = .debug →
      synthesize cfg p r = (.error (.unimplementedOption .packetType .debug), r₁)) ∧
    (p.ptype ≠ .debug → p.debugSub = true → p.mode = .single →
      synthesize cfg p r = (.error (.unimplementedOption .debugSubMode .single), r₁))

/-- 41_frame_synthesizer.md R141: a plan with a Fixed size and a ByteIncrement or Predefined payload takes no draw,
and its frame is the same whatever the randomness input holds. -/
def Obligations.SynthesisWithoutRandomnessIsDeterministic : Prop :=
  ∀ (cfg : Config) (p : Plan) (l : Nat) (r r' : DrawSource),
    p.size = .fixed l → (p.ptype = .byteIncrement ∨ p.ptype = .predefined) →
    (synthesize cfg p r).1 = (synthesize cfg p r').1 ∧ (synthesize cfg p r).2 = r

/-- 41_frame_synthesizer.md section 2 (R134) and 20_memory.md section 3: the two length bytes of every size are those
of N = L - 18, most significant first under the default order (the spec's decision D18, log 9), and a size is at least
64. -/
def Obligations.LengthFieldHoldsThePayloadLength : Prop :=
  ∀ l ∈ sizeTable, 64 ≤ l ∧
    ∃ hi lo : Byte, lengthField .bigEndian (payloadLength l) = [hi, lo] ∧
      lengthField .littleEndian (payloadLength l) = [lo, hi] ∧ hi.toNat * 256 + lo.toNat = l - 18

/-! ### WRCTRL -/

/-- 60_exceptions.md section 1 (R213), 42_generator_fsm.md section 3 (R155, R156): every CTRL write with bit 7 set, in
Idle and in Running, is rejected with the corrected value; only REG[CTRL] and the response change. That a row of one
control point acts so at the other too is the model's choice (log 14). It rests on the spec's own decision D14
(92_eei_decisions.md). -/
def Obligations.ReservedBitWritesAreRejectedInEveryState : Prop :=
  ∀ s : State,
    (∀ other : Word, (Instr.ctrlReserved other).wellFormed = true →
      exec (.ctrlReserved other) s = .next (answeredWith s (0x0080 ||| other)
        (.rejected (.reservedBitSet ((0x0080 ||| other) &&& 0xFF7F))))) ∧
    (∀ (e t : Bool) (other : Word), (Instr.ctrlrReserved e t other).wellFormed = true →
      exec (.ctrlrReserved e t other) s = .next (answeredWith s (0x0080 ||| runBits e t ||| other)
        (.rejected (.reservedBitSet ((0x0080 ||| runBits e t ||| other) &&& 0xFF7F)))))

/-- 60_exceptions.md R214: in Idle a value without both bits is rejected, naming the two bits, and nothing but
REG[CTRL] and the response changes; in Running no value is rejected so. It rests on the spec's own decisions D10, D13,
D23 (92_eei_decisions.md). -/
def Obligations.WritesWithoutBothBitsAreRejectedOnlyInIdle : Prop :=
  (∀ (s : State) (other : Word), s.fsm = .idle → within notrunOther other = true →
    exec (.ctrlNotrun00 other) s = .next (answeredWith s other (.rejected (.notEnabledOrStarted false false))) ∧
    exec (.ctrlNotrun01 other) s =
      .next (answeredWith s (0x0001 ||| other) (.rejected (.notEnabledOrStarted true false))) ∧
    exec (.ctrlNotrun10 other) s =
      .next (answeredWith s (0x0002 ||| other) (.rejected (.notEnabledOrStarted false true)))) ∧
  (∀ (i : Instr) (s t : State) (ph : Phase) (p : Plan) (a b : Bool), s.fsm = .running ph p → exec i s = .next t →
    t.outputs ≠ s.outputs ++ [.resp (.rejected (.notEnabledOrStarted a b))])

/-- 42_generator_fsm.md section 3 (R155), 41_frame_synthesizer.md section 2, 30_encoding.md section 2 (R68): in Idle
each of the seven start rows (Debug, continuous and single Random, Incr and Predef) whose code the parameter PT_MAP
maps to ByteIncrement or to Predefined is accepted and emits the frame of its operands and of REG[DATA], and the run's
fields are fresh; nothing else changes. A continuous start needs a limit other than 0, a single one a value that the
Debug sub-mode does not select. It rests on the spec's own decisions D1, D3, D5, D10, D15, D18 (92_eei_decisions.md).
-/
def Obligations.IncrementAndPredefinedStartsEmitTheirFrame : Prop :=
  ∀ (s : State) (c : BitVec 3) (g : BitVec 2) (u : Word) (l : Nat) (r : DrawSource),
    s.fsm = .idle → within unassignedMask u = true → (s.cfg.unassignedPolicy = .ignore ∨ u = 0) →
    nextSize s.cfg (tableSize c) s.rng l r →
    ∀ w ∈ startRows c g u, (w.mode = .continuous → s.limit ≠ some 0) →
    (w.mode = .single → w.value ∉ s.cfg.debugSubmode) →
    (s.cfg.ptMap.get w.code = .byteIncrement →
      exec w.instr s = .next (startedWith s w.value
        (startPlan s c g .byteIncrement w.mode (s.cfg.debugSubmode.contains w.value))
        (headerBytes s.cfg.lengthByteOrder (s.data.extractLsb' 12 4) (s.data.extractLsb' 8 4) (l - 18) ++
          incrementBytes (l - 18)) r)) ∧
    (s.cfg.ptMap.get w.code = .predefined →
      exec w.instr s = .next (startedWith s w.value
        (startPlan s c g .predefined w.mode (s.cfg.debugSubmode.contains w.value))
        (headerBytes s.cfg.lengthByteOrder (s.data.extractLsb' 12 4) (s.data.extractLsb' 8 4) (l - 18) ++
          List.replicate (l - 18) (s.data.extractLsb' 0 8)) r))

/-- 42_generator_fsm.md section 3 (R155), 41_frame_synthesizer.md section 2, 30_encoding.md section 2 (R68): the same
for each start row whose code PT_MAP maps to Random, with the payload of the bytes drawn: the supplied ones in order
where enough are supplied, and any bytes where not (the model's draws, log 7). It rests on the spec's own decisions
D1, D3, D5, D10, D15, D18, D20 (92_eei_decisions.md). -/
def Obligations.RandomStartsEmitTheDrawnBytes : Prop :=
  ∀ (s : State) (c : BitVec 3) (g : BitVec 2) (u : Word) (l : Nat) (r : DrawSource),
    s.fsm = .idle → within unassignedMask u = true → (s.cfg.unassignedPolicy = .ignore ∨ u = 0) →
    nextSize s.cfg (tableSize c) s.rng l r →
    ∀ w ∈ startRows c g u, (w.mode = .continuous → s.limit ≠ some 0) →
    (w.mode = .single → w.value ∉ s.cfg.debugSubmode) →
    s.cfg.ptMap.get w.code = .random →
    ∃ body r₁, drawsBytes r (l - 18) body r₁ ∧
      exec w.instr s = .next (startedWith s w.value
        (startPlan s c g .random w.mode (s.cfg.debugSubmode.contains w.value))
        (headerBytes s.cfg.lengthByteOrder (s.data.extractLsb' 12 4) (s.data.extractLsb' 8 4) (l - 18) ++ body)
        r₁)

/-- 41_frame_synthesizer.md section 2 (R138), 42_generator_fsm.md section 3, 30_encoding.md section 2 (R68): in Idle
each start row whose code the parameter PT_MAP maps to Debug is accepted and its run fails in the same step with
UnimplementedOption and count 0, before any frame. A continuous one needs a limit other than 0. It rests on the spec's
own decisions D1, D3, D24 (92_eei_decisions.md). -/
def Obligations.DebugStartsFailBeforeAnyFrame : Prop :=
  ∀ (s : State) (c : BitVec 3) (g : BitVec 2) (u : Word) (l : Nat) (r : DrawSource),
    s.fsm = .idle → within unassignedMask u = true → (s.cfg.unassignedPolicy = .ignore ∨ u = 0) →
    nextSize s.cfg (tableSize c) s.rng l r →
    ∀ w ∈ startRows c g u, (w.mode = .continuous → s.limit ≠ some 0) →
    s.cfg.ptMap.get w.code = .debug →
    exec w.instr s = .next (endedAtStart s w.value (.failed (.unimplementedOption .packetType .debug)) r)

/-- 42_generator_fsm.md section 3, 70_reset_and_hazards.md section 2 (R249): with a limit of 0 a continuous start is
accepted and ends in the same step, LimitReached with count 0, with no draw taken. It rests on the spec's own
decisions D3, D15 (92_eei_decisions.md). -/
def Obligations.LimitZeroEndsAContinuousStartAtOnce : Prop :=
  ∀ (s : State) (c : BitVec 3) (g : BitVec 2) (u : Word),
    s.fsm = .idle → within unassignedMask u = true → (s.cfg.unassignedPolicy = .ignore ∨ u = 0) → s.limit = some 0 →
    exec (.ctrlStartContRandom c g u) s = .next (endedAtStart s (startWord 0x0003 c g u) .limitReached s.rng) ∧
    exec (.ctrlStartContIncr c g u) s = .next (endedAtStart s (startWord 0x0103 c g u) .limitReached s.rng) ∧
    exec (.ctrlStartContPredef c g u) s = .next (endedAtStart s (startWord 0x0203 c g u) .limitReached s.rng) ∧
    exec (.ctrlStartDebug c g .continuous u) s =
      .next (endedAtStart s (startWord 0x0303 c g u) .limitReached s.rng)

/-- 30_encoding.md section 2 (R71), 40_register_decoder.md section 4: under the policy Refuse a start with an
unassigned bit set is rejected, naming the bits; only REG[CTRL] and the response change. It rests on the spec's own
decision D3 (92_eei_decisions.md). -/
def Obligations.RefusePolicyRejectsUnassignedBits : Prop :=
  ∀ (s : State) (c : BitVec 3) (g : BitVec 2) (m : Mode) (u : Word),
    s.fsm = .idle → within unassignedMask u = true → s.cfg.unassignedPolicy = .refuse → u ≠ 0 →
    ∀ a : Response, a = .rejected (.unimplementedOption .unassignedCtrlBits (.bits u)) →
    exec (.ctrlStartDebug c g m u) s = .next (answeredWith s (startWord (0x0303 ||| modeBits m) c g u) a) ∧
    exec (.ctrlStartContRandom c g u) s = .next (answeredWith s (startWord 0x0003 c g u) a) ∧
    exec (.ctrlStartContIncr c g u) s = .next (answeredWith s (startWord 0x0103 c g u) a) ∧
    exec (.ctrlStartContPredef c g u) s = .next (answeredWith s (startWord 0x0203 c g u) a) ∧
    exec (.ctrlStartSingleRandom c g u) s = .next (answeredWith s (startWord 0x2003 c g u) a) ∧
    exec (.ctrlStartSingleIncr c g u) s = .next (answeredWith s (startWord 0x2103 c g u) a) ∧
    exec (.ctrlStartSinglePredef c g u) s = .next (answeredWith s (startWord 0x2203 c g u) a)

/-- 41_frame_synthesizer.md section 2 (R139): a single-mode start of any packet type but Debug, under any PT_MAP,
whose value the parameter DEBUG_SUBMODE_SELECT selects is accepted and fails in the same step, naming the sub-mode,
before any frame. It rests on the spec's own decisions D1, D3, D5, D24 (92_eei_decisions.md). -/
def Obligations.DebugSubmodeStartsFailBeforeAnyFrame : Prop :=
  ∀ (s : State) (c : BitVec 3) (g : BitVec 2) (u : Word) (l : Nat) (r : DrawSource),
    s.fsm = .idle → within unassignedMask u = true → (s.cfg.unassignedPolicy = .ignore ∨ u = 0) →
    nextSize s.cfg (tableSize c) s.rng l r →
    ∀ w ∈ startRows c g u, w.mode = .single → w.value ∈ s.cfg.debugSubmode →
    s.cfg.ptMap.get w.code ≠ .debug →
    exec w.instr s = .next (endedAtStart s w.value (.failed (.unimplementedOption .debugSubMode .single)) r)

/-- 42_generator_fsm.md section 3 (R156): in a continuous run a value with neither bit set stops the run, under
EitherClear also a value with one bit clear: in the gap it ends at once, Stopped with its count; with a frame in
flight the request is recorded. Nothing else changes. It rests on the spec's own decisions D13, D17
(92_eei_decisions.md). -/
def Obligations.StopValuesStopAContinuousRun : Prop :=
  ∀ (s : State) (p : Plan) (other : Word), p.mode = .continuous → within notrunOther other = true →
    (s.fsm = .running .gap p →
      exec (.ctrlrStop other) s = .next { s with
        ctrl := other, fsm := .idle, outputs := s.outputs ++ [.resp .ack, .runEnd .stopped s.count] } ∧
      (s.cfg.stopRule = .eitherClear →
        exec (.ctrlrNostop01 other) s = .next { s with
          ctrl := 0x0001 ||| other, fsm := .idle,
          outputs := s.outputs ++ [.resp .ack, .runEnd .stopped s.count] } ∧
        exec (.ctrlrNostop10 other) s = .next { s with
          ctrl := 0x0002 ||| other, fsm := .idle,
          outputs := s.outputs ++ [.resp .ack, .runEnd .stopped s.count] })) ∧
    (s.fsm = .running .awaitSend p →
      exec (.ctrlrStop other) s = .next { s with
        ctrl := other, stopReq := true, outputs := s.outputs ++ [.resp .ack] } ∧
      (s.cfg.stopRule = .eitherClear →
        exec (.ctrlrNostop01 other) s = .next { s with
          ctrl := 0x0001 ||| other, stopReq := true, outputs := s.outputs ++ [.resp .ack] } ∧
        exec (.ctrlrNostop10 other) s = .next { s with
          ctrl := 0x0002 ||| other, stopReq := true, outputs := s.outputs ++ [.resp .ack] }))

/-- 42_generator_fsm.md section 3 (R156), 70_reset_and_hazards.md section 2 (R244): in Running a start value is only
acknowledged, under BothClear also a value with one bit clear, and in single mode every value without bit 7. It rests
on the spec's own decisions D12, D13, D35, D39 (92_eei_decisions.md). -/
def Obligations.OtherValuesInRunningAreOnlyAcknowledged : Prop :=
  ∀ (s : State) (ph : Phase) (p : Plan) (other : Word),
    s.fsm = .running ph p → within notrunOther other = true →
    exec (.ctrlrNostop11 other) s = .next (answeredWith s (0x0003 ||| other) .ack) ∧
    (p.mode = .single ∨ s.cfg.stopRule = .bothClear →
      exec (.ctrlrNostop01 other) s = .next (answeredWith s (0x0001 ||| other) .ack) ∧
      exec (.ctrlrNostop10 other) s = .next (answeredWith s (0x0002 ||| other) .ack)) ∧
    (p.mode = .single → exec (.ctrlrStop other) s = .next (answeredWith s other .ack))

/-! ### The other host operations -/

/-- 42_generator_fsm.md R157: WRDATA latches the value of its three fields and is acknowledged, in every control
point, and nothing else changes; a running plan does not. It rests on the spec's own decision D12
(92_eei_decisions.md). -/
def Obligations.WriteDataLatchesItsThreeFields : Prop :=
  ∀ (s : State) (dst src : BitVec 4) (fill : Byte), ∃ v : Word,
    v.toNat = dst.toNat * 4096 + src.toNat * 256 + fill.toNat ∧
    exec (.wrData dst src fill) s = .next { s with data := v, outputs := s.outputs ++ [.resp .ack] } ∧
    decodeData v = {
      dst := ⟨0x00, 0x03, 0x19, 0xFF, 0xFF, BitVec.ofNat 8 (240 + dst.toNat)⟩
      src := ⟨0x00, 0x03, 0x19, 0xFF, 0xFF, BitVec.ofNat 8 (240 + src.toNat)⟩
      fill := fill }

/-- 42_generator_fsm.md R158: SETLIMIT latches the limit of later runs and is acknowledged, in every control point,
and nothing else changes, the limit of a running run among it. It rests on the spec's own decisions D12, D15
(92_eei_decisions.md). -/
def Obligations.SetLimitLatchesTheLimitOfLaterRuns : Prop :=
  ∀ (s : State) (l : Option Nat),
    exec (.setLimit l) s = .next { s with limit := l, outputs := s.outputs ++ [.resp .ack] }

/-- 42_generator_fsm.md section 3 (R159, R160, R161): CANCEL is acknowledged; in Idle and in single mode it has no
other effect, with a frame of a continuous run in flight it is recorded, in the gap it ends the run. It rests on the
spec's own decisions D17, D35 (92_eei_decisions.md). -/
def Obligations.CancelActsByControlPoint : Prop :=
  (∀ s : State, s.fsm = .idle → exec .cancel s = .next { s with outputs := s.outputs ++ [.resp .ack] }) ∧
  (∀ (s : State) (p : Plan), s.fsm = .running .awaitSend p → p.mode = .continuous →
    exec .cancel s = .next { s with cancelReq := true, outputs := s.outputs ++ [.resp .ack] }) ∧
  (∀ (s : State) (p : Plan), s.fsm = .running .awaitSend p → p.mode = .single →
    exec .cancel s = .next { s with outputs := s.outputs ++ [.resp .ack] }) ∧
  (∀ (s : State) (p : Plan), s.fsm = .running .gap p →
    exec .cancel s = .next { s with
      fsm := .idle, outputs := s.outputs ++ [.resp .ack, .runEnd .cancelled s.count] })

/-! ### The environment's events -/

/-- 42_generator_fsm.md R162: an accepted frame is counted; a single run is Completed; a continuous run ends
Cancelled, else Stopped, else LimitReached, and else the pacing delay of its plan begins; each with the new count.
Nothing else changes. The new count is one more where COUNT_WIDTH is unbounded; that it wraps where a width is given
is the model's choice (log 8). It rests on the spec's own decisions D16, D22, D25, D26 (92_eei_decisions.md). -/
def Obligations.SendDoneOkCountsThenEndsOrPaces : Prop :=
  ∀ (s : State) (p : Plan) (n : Nat), s.fsm = .running .awaitSend p →
    (s.cfg.countWidth = none → n = s.count + 1) →
    (∀ w, s.cfg.countWidth = some w → n = (s.count + 1) % 2 ^ w) →
    (p.mode = .single → exec .sendDoneOk s = .next (endedWith s .completed n)) ∧
    (p.mode = .continuous →
      (s.cancelReq = true → exec .sendDoneOk s = .next (endedWith s .cancelled n)) ∧
      (s.cancelReq = false → s.stopReq = true → exec .sendDoneOk s = .next (endedWith s .stopped n)) ∧
      (s.cancelReq = false → s.stopReq = false → (∃ m, s.runLimit = some m ∧ m ≤ n) →
        exec .sendDoneOk s = .next (endedWith s .limitReached n)) ∧
      (s.cancelReq = false → s.stopReq = false → (∀ m, s.runLimit = some m → n < m) →
        exec .sendDoneOk s = .next { s with
          count := n, fsm := .running .gap p, outputs := s.outputs ++ [.gapStart p.ipgBits] }))

/-- The model's reading of parameter COUNT_WIDTH (log 8; 92_eei_decisions.md D26): a counter of `w` bits wraps, and
SENDDONE(Ok) still completes with the wrapped count. -/
def Obligations.AGivenCountWidthWraps : Prop :=
  ∀ (s : State) (p : Plan) (w : Nat), s.fsm = .running .awaitSend p → s.cfg.countWidth = some w →
    ∃ t, exec .sendDoneOk s = .next t ∧ t.count = (s.count + 1) % 2 ^ w

/-- 42_generator_fsm.md R163: a failed send ends the run with the transport's error; the failed frame is not counted
and nothing else changes. It rests on the spec's own decision D25 (92_eei_decisions.md). -/
def Obligations.SendDoneErrAbortsTheRun : Prop :=
  ∀ (s : State) (p : Plan) (e : TransportInfo), s.fsm = .running .awaitSend p →
    exec (.sendDoneErr e) s = .next { s with
      fsm := .idle, outputs := s.outputs ++ [.runEnd (.failed (.transportError e)) s.count] }

/-- 42_generator_fsm.md section 4 (R164) and section 2 (R153, R154): when the pacing delay is over, a continuous run
with a request or at its limit ends; else the next frame is emitted, of a newly drawn size and bytes where its plan
draws them (log 7). Nothing else changes. It rests on the spec's own decisions D16, D17, D20 (92_eei_decisions.md). -/
def Obligations.GapElapsedChecksThenEmitsTheNextFrame : Prop :=
  ∀ (s : State) (p : Plan), s.fsm = .running .gap p → p.mode = .continuous →
    (s.cancelReq = true → exec .gapElapsed s = .next (endedWith s .cancelled s.count)) ∧
    (s.cancelReq = false → s.stopReq = true → exec .gapElapsed s = .next (endedWith s .stopped s.count)) ∧
    (s.cancelReq = false → s.stopReq = false → (∃ m, s.runLimit = some m ∧ m ≤ s.count) →
      exec .gapElapsed s = .next (endedWith s .limitReached s.count)) ∧
    (∀ (l : Nat) (r : DrawSource), s.cancelReq = false → s.stopReq = false →
      (∀ m, s.runLimit = some m → s.count < m) → p.ptype ≠ .debug → nextSize s.cfg p.size s.rng l r →
      ∃ body r₁, exec .gapElapsed s = .next { s with
          fsm := .running .awaitSend p, rng := r₁,
          outputs := s.outputs ++ [.send
            (p.dst.toList ++ p.src.toList ++ lengthBytes s.cfg.lengthByteOrder (l - 18) ++ body)] } ∧
        (p.ptype = .byteIncrement → body = incrementBytes (l - 18) ∧ r₁ = r) ∧
        (p.ptype = .predefined → body = List.replicate (l - 18) p.fill ∧ r₁ = r) ∧
        (p.ptype = .random → drawsBytes r (l - 18) body r₁))

/-- 42_generator_fsm.md section 1 (R151): an instruction completes exactly where the admission table admits it. That
an event which is not admitted is refused by name is the model's choice (log 10). It rests on the spec's own decision
D37 (92_eei_decisions.md). -/
def Obligations.AdmissionIsTheStatedTable : Prop :=
  ∀ (i : Instr) (s : State),
    ((∃ t, exec i s = .next t) ↔ admits s.controlPoint i = true) ∧
    (admits s.controlPoint i = false →
      (i = .gapElapsed ∧ exec i s = .refused .gapElapsedNotAdmitted) ∨
      (i ≠ .gapElapsed ∧ exec i s = .refused .sendDoneNotAdmitted))

/-! ### The whole machine -/

/-- The block right after reset meets both invariants below. It rests on the spec's own decision D9
(92_eei_decisions.md). -/
def Obligations.ResetMeetsBothInvariants : Prop := State.reset.Inv ∧ State.reset.Conversing

/-- 10_state.md section 2, 42_generator_fsm.md section 5, 41_frame_synthesizer.md section 3: every step keeps the
driver's invariant: well-formed parameters, a legal running plan, no gap in single mode and none with a recorded
request, no request recorded in single mode, a continuous run below its limit, and only legal frames and documented
gaps ever output. It rests on the spec's own decisions D5, D15, D17, D22, D36 (92_eei_decisions.md). -/
def Obligations.EveryStepKeepsTheInvariant : Prop :=
  ∀ s t : State, s.Inv → step s = .next t → t.Inv

/-- 42_generator_fsm.md sections 1 and 5 (R150, R165, R166, R170): the outputs form a legal conversation: a run is
accepted once, has at most one frame in flight, paces only after a frame, and ends with exactly one RUNEND. The new
outputs of an instruction, and of a step, move it from where the control point stood to where it stands after,
whatever was output before; but the reset event, which abandons a run without output (R241), leaves the block in Idle,
from where later runs are conversations again. So a whole history that is a legal conversation stays one through every
instruction and every other step. It rests on the spec's own decisions D8, D17, D22, D25, D34, D36
(92_eei_decisions.md). -/
def Obligations.EveryStepKeepsTheConversation : Prop :=
  (∀ (i : Instr) (s t : State), exec i s = .next t → ∃ new, t.outputs = s.outputs ++ new ∧
    Talk.after s.controlPoint.talk new = some t.controlPoint.talk) ∧
  (∀ s t : State, step s = .next t → ∃ new, t.outputs = s.outputs ++ new ∧
    (s.inbox.head? ≠ some .reset → Talk.after s.controlPoint.talk new = some t.controlPoint.talk) ∧
    (s.inbox.head? = some .reset → new = [] ∧ t.controlPoint = .idle)) ∧
  (∀ (i : Instr) (s t : State), s.Conversing → exec i s = .next t → t.Conversing) ∧
  (∀ s t : State, s.Conversing → s.inbox.head? ≠ some .reset → step s = .next t → t.Conversing)

/-- 42_generator_fsm.md sections 1 and 5 (R150, R168, R169), 70_reset_and_hazards.md section 2 (R250): an instruction
only appends outputs: a host event one response and then at most one other output, an environment event exactly one
output that is no response, and after a rejection nothing. Every step leaves the earlier outputs as they are. It rests
on the spec's own decisions D8, D34 (92_eei_decisions.md). -/
def Obligations.OutputsOfAStepHaveTheStatedShape : Prop :=
  (∀ (i : Instr) (s t : State), exec i s = .next t → ∃ new : List Output, t.outputs = s.outputs ++ new ∧
    (fromHost i = true → ∃ a, new = [.resp a] ∨ ∃ o, new = [.resp a, o] ∧ ∀ b, o ≠ .resp b) ∧
    (fromHost i = false → ∃ o, new = [o] ∧ ∀ b, o ≠ .resp b) ∧
    (∀ e, .resp (.rejected e) ∈ new → new = [.resp (.rejected e)])) ∧
  (∀ s t : State, step s = .next t → List.IsPrefix s.outputs t.outputs)

/-- 20_memory.md section 6 (R52), 70_reset_and_hazards.md section 2 (R244, R249): while a run goes on, no step changes
its plan or its limit. It rests on the spec's own decisions D12, D15 (92_eei_decisions.md). -/
def Obligations.ARunKeepsItsPlanAndLimit : Prop :=
  ∀ (s t : State) (ph ph' : Phase) (p p' : Plan), step s = .next t →
    s.fsm = .running ph p → t.fsm = .running ph' p' → p' = p ∧ t.runLimit = s.runLimit

/-- 10_state.md section 1 (R20): no instruction reads REG[CTRL]: another value there changes nothing else of the
outcome. It rests on the spec's own decision D8 (92_eei_decisions.md). -/
def Obligations.NoInstructionReadsTheCtrlRegister : Prop :=
  ∀ (i : Instr) (s : State) (x : Word),
    (∀ t, exec i s = .next t → ∃ y, exec i { s with ctrl := x } = .next { t with ctrl := y }) ∧
    (∀ q, exec i s = .refused q → exec i { s with ctrl := x } = .refused q)

/-- 10_state.md section 1 (R21): REG[DATA] is read only by a write that starts a run: where no run is accepted,
another value there changes nothing else of the next state. It rests on the spec's own decisions D8, D11
(92_eei_decisions.md). -/
def Obligations.OnlyAStartReadsTheDataRegister : Prop :=
  ∀ (i : Instr) (s t : State) (x : Word), exec i s = .next t →
    (∀ o, t.outputs ≠ s.outputs ++ [.resp .accepted, o]) →
    ∃ y, exec i { s with data := x } = .next { t with data := y }

/-- 00_scope.md section 1 (R3): nothing reads back an output. No instruction reads the history of outputs or the
inputs to come. It rests on the spec's own decision D8 (92_eei_decisions.md). -/
def Obligations.NoInstructionReadsOutputsOrInputsToCome : Prop :=
  ∀ (i : Instr) (s : State) (o : List Output) (q : List Input),
    (∀ t, exec i s = .next t → ∃ new, t.outputs = s.outputs ++ new ∧ t.inbox = s.inbox ∧
      exec i { s with outputs := o, inbox := q } = .next { t with outputs := o ++ new, inbox := q }) ∧
    (∀ a, exec i s = .refused a → exec i { s with outputs := o, inbox := q } = .refused a)

/-- 70_reset_and_hazards.md section 2 (R246): in a single-mode run no host event ends the run, emits a frame or
changes anything of the run, and either answer of the transport ends it. It rests on the spec's own decision D35
(92_eei_decisions.md). -/
def Obligations.ASingleRunIgnoresCancelStopAndLimit : Prop :=
  ∀ (s : State) (p : Plan), s.fsm = .running .awaitSend p → p.mode = .single →
    (∀ i : Instr, fromHost i = true → ∃ t a, exec i s = .next t ∧ t.outputs = s.outputs ++ [.resp a] ∧
      t.fsm = s.fsm ∧ t.count = s.count ∧ t.cancelReq = s.cancelReq ∧ t.stopReq = s.stopReq ∧
      t.runLimit = s.runLimit ∧ t.rng = s.rng ∧ t.cfg = s.cfg) ∧
    (∃ t n, exec .sendDoneOk s = .next t ∧ t.fsm = .idle ∧ t.outputs = s.outputs ++ [.runEnd .completed n]) ∧
    (∀ e, ∃ t, exec (.sendDoneErr e) s = .next t ∧ t.fsm = .idle ∧
      t.outputs = s.outputs ++ [.runEnd (.failed (.transportError e)) s.count])

/-- 60_exceptions.md R219: a failure inside a run outputs the error and the count, sets the control point to Idle, and
keeps REG[DATA] and REG[LIMIT], and REG[CTRL] as the event left it. It rests on the spec's own decision D25
(92_eei_decisions.md). -/
def Obligations.AFailedRunKeepsTheRegisters : Prop :=
  ∀ (i : Instr) (s t : State) (e : Err) (n : Nat) (before : List Output), exec i s = .next t →
    t.outputs = s.outputs ++ before ++ [.runEnd (.failed e) n] →
    t.controlPoint = .idle ∧ n = t.count ∧ t.data = s.data ∧ t.limit = s.limit ∧
    (t.ctrl = s.ctrl ∨ encode i = .wrCtrl t.ctrl)

/-- The parameters of 00_scope.md section 4 are fixed for the machine: no step changes them. The model's choice to
hold them in the state (log 2). -/
def Obligations.NoStepChangesAParameter : Prop :=
  ∀ s t : State, step s = .next t → t.cfg = s.cfg

/-! ### The host's side and the errors -/

/-- 45_host_literals.md section on separators (R191, R196): a separator anywhere in a literal changes neither its
value nor whether it parses. It rests on the spec's own decision D32 (92_eei_decisions.md). -/
def Obligations.ASeparatorDoesNotChangeALiteral : Prop :=
  ∀ (before after : List Char) (c : Char), (c = '_' ∨ c.toNat = 39) →
    ∀ v : Word, parseLiteralChars (before ++ c :: after) = .ok v ↔ parseLiteralChars (before ++ after) = .ok v

/-- 45_host_literals.md (R190, R192, R193, R194, R195): a literal is the number its digits denote in the radix of its
prefix, for either case of a hexadecimal digit, and a number above 0xFFFF fails with the literal's text and that
radix. It rests on the spec's own decision D32 (92_eei_decisions.md). -/
def Obligations.LiteralsDenoteTheirNumber : Prop :=
  ∀ (pre : List Char) (radix : Nat) (digits : List (Nat × Bool)),
    ((pre = ['0', 'x'] ∧ radix = 16) ∨ (pre = ['0', 'o'] ∧ radix = 8) ∨ (pre = ['0', 'b'] ∧ radix = 2) ∨
      (pre = [] ∧ radix = 10)) →
    digits ≠ [] → (∀ d ∈ digits, d.1 < radix) →
    ∀ (text : List Char) (n : Nat),
      text = pre ++ digits.map (fun d =>
        Char.ofNat (if d.1 < 10 then 48 + d.1 else if d.2 then 55 + d.1 else 87 + d.1)) →
      n = digits.foldl (fun a d => a * radix + d.1) 0 →
      parseLiteralChars text =
        if n ≤ 0xFFFF then .ok (BitVec.ofNat 16 n) else .error (.literalParseError (String.ofList text) radix)

/-- 45_host_literals.md (R192, R195): a literal that fails reports its text as received and the radix that the prefix
of the text without separators selects: 16, 8 or 2, and 10 when it has none. It rests on the spec's own decision D32
(92_eei_decisions.md). -/
def Obligations.LiteralErrorsNameTheTextAndRadix : Prop :=
  ∀ (text t : List Char) (e : Err), t = text.filter (fun c => c ≠ '_' && c.toNat ≠ 39) →
    parseLiteralChars text = .error e →
    ((∃ ds, t = '0' :: 'x' :: ds) → e = .literalParseError (String.ofList text) 16) ∧
    ((∃ ds, t = '0' :: 'o' :: ds) → e = .literalParseError (String.ofList text) 8) ∧
    ((∃ ds, t = '0' :: 'b' :: ds) → e = .literalParseError (String.ofList text) 2) ∧
    ((∀ ds, t ≠ '0' :: 'x' :: ds ∧ t ≠ '0' :: 'o' :: ds ∧ t ≠ '0' :: 'b' :: ds) →
      e = .literalParseError (String.ofList text) 10)

/-- 30_encoding.md section 6: the three pseudo-operations expand to the register writes the table gives. It rests on
the spec's own decisions D11, D40 (92_eei_decisions.md). -/
def Obligations.PseudoOperationsExpandAsStated : Prop :=
  ∀ c d : Word,
    ScriptLine.expand (.runBoth c d) = [.wrData d, .wrCtrl c] ∧
    ScriptLine.expand (.runCtrl c) = [.wrData 0x0000, .wrCtrl c] ∧
    ScriptLine.expand .stop = [.wrCtrl 0x0000]

/-- 60_exceptions.md section 1 (R210, R211): the five kinds of error have the codes 1 to 5, and only the transport's
error is of the runtime class. It rests on the spec's own decision D23 (92_eei_decisions.md). -/
def Obligations.ErrorCodesKeepTheTwoClassesApart : Prop :=
  (∀ t r, (Err.literalParseError t r).code = 1) ∧ (∀ v, (Err.reservedBitSet v).code = 2) ∧
  (∀ a b, (Err.notEnabledOrStarted a b).code = 3) ∧ (∀ f v, (Err.unimplementedOption f v).code = 4) ∧
  (∀ e, (Err.transportError e).code = 5) ∧
  (∀ e : Err, e.kind = .runtime ↔ ∃ x, e = .transportError x)

/-- 45_host_literals.md (R193): a literal with no digit after its prefix, or with a character that is no digit of its
radix in either case, fails with its text as received and that radix. It rests on the spec's own decision D32
(92_eei_decisions.md). -/
def Obligations.LiteralsWithoutDigitsOrWithAForeignCharacterFail : Prop :=
  ∀ (text pre body : List Char) (radix : Nat),
    ((pre = ['0', 'x'] ∧ radix = 16) ∨ (pre = ['0', 'o'] ∧ radix = 8) ∨ (pre = ['0', 'b'] ∧ radix = 2) ∨
      (pre = [] ∧ radix = 10 ∧ ∀ ds, body ≠ '0' :: 'x' :: ds ∧ body ≠ '0' :: 'o' :: ds ∧ body ≠ '0' :: 'b' :: ds)) →
    text.filter (fun c => c ≠ '_' && c.toNat ≠ 39) = pre ++ body →
    (body = [] ∨ ∃ c ∈ body, ∀ d < radix, c ≠ digitChar d true ∧ c ≠ digitChar d false) →
    parseLiteralChars text = .error (.literalParseError (String.ofList text) radix)
end

