-- ==== Sys2Proof/Laws/State.lean ====
section
/-! SUPPORT. One lemma per field per update of the state, each true by rfl, so that no later proof unfolds a record
update. -/

namespace Sys2Proof.Machine

section updates


/-! ### out -/

section outFields
variable (s : State) (o : Output)

@[simp] theorem State.out_cfg : (s.out o).cfg = s.cfg := rfl
@[simp] theorem State.out_ctrl : (s.out o).ctrl = s.ctrl := rfl
@[simp] theorem State.out_data : (s.out o).data = s.data := rfl
@[simp] theorem State.out_limit : (s.out o).limit = s.limit := rfl
@[simp] theorem State.out_fsm : (s.out o).fsm = s.fsm := rfl
@[simp] theorem State.out_count : (s.out o).count = s.count := rfl
@[simp] theorem State.out_cancelReq : (s.out o).cancelReq = s.cancelReq := rfl
@[simp] theorem State.out_stopReq : (s.out o).stopReq = s.stopReq := rfl
@[simp] theorem State.out_runLimit : (s.out o).runLimit = s.runLimit := rfl
@[simp] theorem State.out_rng : (s.out o).rng = s.rng := rfl
@[simp] theorem State.out_inbox : (s.out o).inbox = s.inbox := rfl
@[simp] theorem State.out_outputs : (s.out o).outputs = s.outputs ++ [o] := rfl

end outFields

/-! ### writeCtrl -/

section writeCtrlFields
variable (s : State) (v : Word)

@[simp] theorem State.writeCtrl_cfg : (s.writeCtrl v).cfg = s.cfg := rfl
@[simp] theorem State.writeCtrl_ctrl : (s.writeCtrl v).ctrl = v := rfl
@[simp] theorem State.writeCtrl_data : (s.writeCtrl v).data = s.data := rfl
@[simp] theorem State.writeCtrl_limit : (s.writeCtrl v).limit = s.limit := rfl
@[simp] theorem State.writeCtrl_fsm : (s.writeCtrl v).fsm = s.fsm := rfl
@[simp] theorem State.writeCtrl_count : (s.writeCtrl v).count = s.count := rfl
@[simp] theorem State.writeCtrl_cancelReq : (s.writeCtrl v).cancelReq = s.cancelReq := rfl
@[simp] theorem State.writeCtrl_stopReq : (s.writeCtrl v).stopReq = s.stopReq := rfl
@[simp] theorem State.writeCtrl_runLimit : (s.writeCtrl v).runLimit = s.runLimit := rfl
@[simp] theorem State.writeCtrl_rng : (s.writeCtrl v).rng = s.rng := rfl
@[simp] theorem State.writeCtrl_inbox : (s.writeCtrl v).inbox = s.inbox := rfl
@[simp] theorem State.writeCtrl_outputs : (s.writeCtrl v).outputs = s.outputs := rfl

end writeCtrlFields

/-! ### writeData -/

section writeDataFields
variable (s : State) (v : Word)

@[simp] theorem State.writeData_cfg : (s.writeData v).cfg = s.cfg := rfl
@[simp] theorem State.writeData_ctrl : (s.writeData v).ctrl = s.ctrl := rfl
@[simp] theorem State.writeData_data : (s.writeData v).data = v := rfl
@[simp] theorem State.writeData_limit : (s.writeData v).limit = s.limit := rfl
@[simp] theorem State.writeData_fsm : (s.writeData v).fsm = s.fsm := rfl
@[simp] theorem State.writeData_count : (s.writeData v).count = s.count := rfl
@[simp] theorem State.writeData_cancelReq : (s.writeData v).cancelReq = s.cancelReq := rfl
@[simp] theorem State.writeData_stopReq : (s.writeData v).stopReq = s.stopReq := rfl
@[simp] theorem State.writeData_runLimit : (s.writeData v).runLimit = s.runLimit := rfl
@[simp] theorem State.writeData_rng : (s.writeData v).rng = s.rng := rfl
@[simp] theorem State.writeData_inbox : (s.writeData v).inbox = s.inbox := rfl
@[simp] theorem State.writeData_outputs : (s.writeData v).outputs = s.outputs := rfl

end writeDataFields

/-! ### writeLimit -/

section writeLimitFields
variable (s : State) (l : Option Nat)

@[simp] theorem State.writeLimit_cfg : (s.writeLimit l).cfg = s.cfg := rfl
@[simp] theorem State.writeLimit_ctrl : (s.writeLimit l).ctrl = s.ctrl := rfl
@[simp] theorem State.writeLimit_data : (s.writeLimit l).data = s.data := rfl
@[simp] theorem State.writeLimit_limit : (s.writeLimit l).limit = l := rfl
@[simp] theorem State.writeLimit_fsm : (s.writeLimit l).fsm = s.fsm := rfl
@[simp] theorem State.writeLimit_count : (s.writeLimit l).count = s.count := rfl
@[simp] theorem State.writeLimit_cancelReq : (s.writeLimit l).cancelReq = s.cancelReq := rfl
@[simp] theorem State.writeLimit_stopReq : (s.writeLimit l).stopReq = s.stopReq := rfl
@[simp] theorem State.writeLimit_runLimit : (s.writeLimit l).runLimit = s.runLimit := rfl
@[simp] theorem State.writeLimit_rng : (s.writeLimit l).rng = s.rng := rfl
@[simp] theorem State.writeLimit_inbox : (s.writeLimit l).inbox = s.inbox := rfl
@[simp] theorem State.writeLimit_outputs : (s.writeLimit l).outputs = s.outputs := rfl

end writeLimitFields

/-! ### setFsm -/

section setFsmFields
variable (s : State) (f : Fsm)

@[simp] theorem State.setFsm_cfg : (s.setFsm f).cfg = s.cfg := rfl
@[simp] theorem State.setFsm_ctrl : (s.setFsm f).ctrl = s.ctrl := rfl
@[simp] theorem State.setFsm_data : (s.setFsm f).data = s.data := rfl
@[simp] theorem State.setFsm_limit : (s.setFsm f).limit = s.limit := rfl
@[simp] theorem State.setFsm_fsm : (s.setFsm f).fsm = f := rfl
@[simp] theorem State.setFsm_count : (s.setFsm f).count = s.count := rfl
@[simp] theorem State.setFsm_cancelReq : (s.setFsm f).cancelReq = s.cancelReq := rfl
@[simp] theorem State.setFsm_stopReq : (s.setFsm f).stopReq = s.stopReq := rfl
@[simp] theorem State.setFsm_runLimit : (s.setFsm f).runLimit = s.runLimit := rfl
@[simp] theorem State.setFsm_rng : (s.setFsm f).rng = s.rng := rfl
@[simp] theorem State.setFsm_inbox : (s.setFsm f).inbox = s.inbox := rfl
@[simp] theorem State.setFsm_outputs : (s.setFsm f).outputs = s.outputs := rfl

end setFsmFields

/-! ### setCount -/

section setCountFields
variable (s : State) (n : Nat)

@[simp] theorem State.setCount_cfg : (s.setCount n).cfg = s.cfg := rfl
@[simp] theorem State.setCount_ctrl : (s.setCount n).ctrl = s.ctrl := rfl
@[simp] theorem State.setCount_data : (s.setCount n).data = s.data := rfl
@[simp] theorem State.setCount_limit : (s.setCount n).limit = s.limit := rfl
@[simp] theorem State.setCount_fsm : (s.setCount n).fsm = s.fsm := rfl
@[simp] theorem State.setCount_count : (s.setCount n).count = n := rfl
@[simp] theorem State.setCount_cancelReq : (s.setCount n).cancelReq = s.cancelReq := rfl
@[simp] theorem State.setCount_stopReq : (s.setCount n).stopReq = s.stopReq := rfl
@[simp] theorem State.setCount_runLimit : (s.setCount n).runLimit = s.runLimit := rfl
@[simp] theorem State.setCount_rng : (s.setCount n).rng = s.rng := rfl
@[simp] theorem State.setCount_inbox : (s.setCount n).inbox = s.inbox := rfl
@[simp] theorem State.setCount_outputs : (s.setCount n).outputs = s.outputs := rfl

end setCountFields

/-! ### setCancel -/

section setCancelFields
variable (s : State) (b : Bool)

@[simp] theorem State.setCancel_cfg : (s.setCancel b).cfg = s.cfg := rfl
@[simp] theorem State.setCancel_ctrl : (s.setCancel b).ctrl = s.ctrl := rfl
@[simp] theorem State.setCancel_data : (s.setCancel b).data = s.data := rfl
@[simp] theorem State.setCancel_limit : (s.setCancel b).limit = s.limit := rfl
@[simp] theorem State.setCancel_fsm : (s.setCancel b).fsm = s.fsm := rfl
@[simp] theorem State.setCancel_count : (s.setCancel b).count = s.count := rfl
@[simp] theorem State.setCancel_cancelReq : (s.setCancel b).cancelReq = b := rfl
@[simp] theorem State.setCancel_stopReq : (s.setCancel b).stopReq = s.stopReq := rfl
@[simp] theorem State.setCancel_runLimit : (s.setCancel b).runLimit = s.runLimit := rfl
@[simp] theorem State.setCancel_rng : (s.setCancel b).rng = s.rng := rfl
@[simp] theorem State.setCancel_inbox : (s.setCancel b).inbox = s.inbox := rfl
@[simp] theorem State.setCancel_outputs : (s.setCancel b).outputs = s.outputs := rfl

end setCancelFields

/-! ### setStop -/

section setStopFields
variable (s : State) (b : Bool)

@[simp] theorem State.setStop_cfg : (s.setStop b).cfg = s.cfg := rfl
@[simp] theorem State.setStop_ctrl : (s.setStop b).ctrl = s.ctrl := rfl
@[simp] theorem State.setStop_data : (s.setStop b).data = s.data := rfl
@[simp] theorem State.setStop_limit : (s.setStop b).limit = s.limit := rfl
@[simp] theorem State.setStop_fsm : (s.setStop b).fsm = s.fsm := rfl
@[simp] theorem State.setStop_count : (s.setStop b).count = s.count := rfl
@[simp] theorem State.setStop_cancelReq : (s.setStop b).cancelReq = s.cancelReq := rfl
@[simp] theorem State.setStop_stopReq : (s.setStop b).stopReq = b := rfl
@[simp] theorem State.setStop_runLimit : (s.setStop b).runLimit = s.runLimit := rfl
@[simp] theorem State.setStop_rng : (s.setStop b).rng = s.rng := rfl
@[simp] theorem State.setStop_inbox : (s.setStop b).inbox = s.inbox := rfl
@[simp] theorem State.setStop_outputs : (s.setStop b).outputs = s.outputs := rfl

end setStopFields

/-! ### setRunLimit -/

section setRunLimitFields
variable (s : State) (l : Option Nat)

@[simp] theorem State.setRunLimit_cfg : (s.setRunLimit l).cfg = s.cfg := rfl
@[simp] theorem State.setRunLimit_ctrl : (s.setRunLimit l).ctrl = s.ctrl := rfl
@[simp] theorem State.setRunLimit_data : (s.setRunLimit l).data = s.data := rfl
@[simp] theorem State.setRunLimit_limit : (s.setRunLimit l).limit = s.limit := rfl
@[simp] theorem State.setRunLimit_fsm : (s.setRunLimit l).fsm = s.fsm := rfl
@[simp] theorem State.setRunLimit_count : (s.setRunLimit l).count = s.count := rfl
@[simp] theorem State.setRunLimit_cancelReq : (s.setRunLimit l).cancelReq = s.cancelReq := rfl
@[simp] theorem State.setRunLimit_stopReq : (s.setRunLimit l).stopReq = s.stopReq := rfl
@[simp] theorem State.setRunLimit_runLimit : (s.setRunLimit l).runLimit = l := rfl
@[simp] theorem State.setRunLimit_rng : (s.setRunLimit l).rng = s.rng := rfl
@[simp] theorem State.setRunLimit_inbox : (s.setRunLimit l).inbox = s.inbox := rfl
@[simp] theorem State.setRunLimit_outputs : (s.setRunLimit l).outputs = s.outputs := rfl

end setRunLimitFields

/-! ### setRng -/

section setRngFields
variable (s : State) (r : DrawSource)

@[simp] theorem State.setRng_cfg : (s.setRng r).cfg = s.cfg := rfl
@[simp] theorem State.setRng_ctrl : (s.setRng r).ctrl = s.ctrl := rfl
@[simp] theorem State.setRng_data : (s.setRng r).data = s.data := rfl
@[simp] theorem State.setRng_limit : (s.setRng r).limit = s.limit := rfl
@[simp] theorem State.setRng_fsm : (s.setRng r).fsm = s.fsm := rfl
@[simp] theorem State.setRng_count : (s.setRng r).count = s.count := rfl
@[simp] theorem State.setRng_cancelReq : (s.setRng r).cancelReq = s.cancelReq := rfl
@[simp] theorem State.setRng_stopReq : (s.setRng r).stopReq = s.stopReq := rfl
@[simp] theorem State.setRng_runLimit : (s.setRng r).runLimit = s.runLimit := rfl
@[simp] theorem State.setRng_rng : (s.setRng r).rng = r := rfl
@[simp] theorem State.setRng_inbox : (s.setRng r).inbox = s.inbox := rfl
@[simp] theorem State.setRng_outputs : (s.setRng r).outputs = s.outputs := rfl

end setRngFields

/-! ### setInbox -/

section setInboxFields
variable (s : State) (q : List Input)

@[simp] theorem State.setInbox_cfg : (s.setInbox q).cfg = s.cfg := rfl
@[simp] theorem State.setInbox_ctrl : (s.setInbox q).ctrl = s.ctrl := rfl
@[simp] theorem State.setInbox_data : (s.setInbox q).data = s.data := rfl
@[simp] theorem State.setInbox_limit : (s.setInbox q).limit = s.limit := rfl
@[simp] theorem State.setInbox_fsm : (s.setInbox q).fsm = s.fsm := rfl
@[simp] theorem State.setInbox_count : (s.setInbox q).count = s.count := rfl
@[simp] theorem State.setInbox_cancelReq : (s.setInbox q).cancelReq = s.cancelReq := rfl
@[simp] theorem State.setInbox_stopReq : (s.setInbox q).stopReq = s.stopReq := rfl
@[simp] theorem State.setInbox_runLimit : (s.setInbox q).runLimit = s.runLimit := rfl
@[simp] theorem State.setInbox_rng : (s.setInbox q).rng = s.rng := rfl
@[simp] theorem State.setInbox_inbox : (s.setInbox q).inbox = q := rfl
@[simp] theorem State.setInbox_outputs : (s.setInbox q).outputs = s.outputs := rfl

end setInboxFields

/-! ### The four outputs are `out` -/

@[simp] theorem State.respond_eq (s : State) (r : Response) : s.respond r = s.out (.resp r) := rfl
@[simp] theorem State.emit_eq (s : State) (f : Frame) : s.emit f = s.out (.send f) := rfl
@[simp] theorem State.report_eq (s : State) (r : Reason) (n : Nat) : s.report r n = s.out (.runEnd r n) := rfl
@[simp] theorem State.startGap_eq (s : State) (b : Nat) : s.startGap b = s.out (.gapStart b) := rfl
@[simp] theorem State.reject_eq (s : State) (e : Err) : s.reject e = s.out (.resp (.rejected e)) := rfl
@[simp] theorem State.abortRun_eq (s : State) (e : Err) : s.abortRun e = s.endRun (.failed e) := rfl

/-! ### endRun -/

section endRunFields
variable (s : State) (r : Reason)

@[simp] theorem State.endRun_cfg : (s.endRun r).cfg = s.cfg := rfl
@[simp] theorem State.endRun_ctrl : (s.endRun r).ctrl = s.ctrl := rfl
@[simp] theorem State.endRun_data : (s.endRun r).data = s.data := rfl
@[simp] theorem State.endRun_limit : (s.endRun r).limit = s.limit := rfl
@[simp] theorem State.endRun_fsm : (s.endRun r).fsm = .idle := rfl
@[simp] theorem State.endRun_count : (s.endRun r).count = s.count := rfl
@[simp] theorem State.endRun_cancelReq : (s.endRun r).cancelReq = s.cancelReq := rfl
@[simp] theorem State.endRun_stopReq : (s.endRun r).stopReq = s.stopReq := rfl
@[simp] theorem State.endRun_runLimit : (s.endRun r).runLimit = s.runLimit := rfl
@[simp] theorem State.endRun_rng : (s.endRun r).rng = s.rng := rfl
@[simp] theorem State.endRun_inbox : (s.endRun r).inbox = s.inbox := rfl
@[simp] theorem State.endRun_outputs : (s.endRun r).outputs = s.outputs ++ [.runEnd r s.count] := rfl

end endRunFields

/-! ### freshRun -/

section freshRunFields
variable (s : State)

@[simp] theorem State.freshRun_cfg : s.freshRun.cfg = s.cfg := rfl
@[simp] theorem State.freshRun_ctrl : s.freshRun.ctrl = s.ctrl := rfl
@[simp] theorem State.freshRun_data : s.freshRun.data = s.data := rfl
@[simp] theorem State.freshRun_limit : s.freshRun.limit = s.limit := rfl
@[simp] theorem State.freshRun_fsm : s.freshRun.fsm = s.fsm := rfl
@[simp] theorem State.freshRun_count : s.freshRun.count = 0 := rfl
@[simp] theorem State.freshRun_cancelReq : s.freshRun.cancelReq = false := rfl
@[simp] theorem State.freshRun_stopReq : s.freshRun.stopReq = false := rfl
@[simp] theorem State.freshRun_runLimit : s.freshRun.runLimit = s.limit := rfl
@[simp] theorem State.freshRun_rng : s.freshRun.rng = s.rng := rfl
@[simp] theorem State.freshRun_inbox : s.freshRun.inbox = s.inbox := rfl
@[simp] theorem State.freshRun_outputs : s.freshRun.outputs = s.outputs := rfl

end freshRunFields

/-! ### resetBlock -/

section resetBlockFields
variable (s : State)

@[simp] theorem State.resetBlock_cfg : s.resetBlock.cfg = s.cfg := rfl
@[simp] theorem State.resetBlock_ctrl : s.resetBlock.ctrl = 0x0000 := rfl
@[simp] theorem State.resetBlock_data : s.resetBlock.data = 0x0000 := rfl
@[simp] theorem State.resetBlock_limit : s.resetBlock.limit = none := rfl
@[simp] theorem State.resetBlock_fsm : s.resetBlock.fsm = .idle := rfl
@[simp] theorem State.resetBlock_count : s.resetBlock.count = 0 := rfl
@[simp] theorem State.resetBlock_cancelReq : s.resetBlock.cancelReq = false := rfl
@[simp] theorem State.resetBlock_stopReq : s.resetBlock.stopReq = false := rfl
@[simp] theorem State.resetBlock_runLimit : s.resetBlock.runLimit = none := rfl
@[simp] theorem State.resetBlock_rng : s.resetBlock.rng = s.rng := rfl
@[simp] theorem State.resetBlock_inbox : s.resetBlock.inbox = s.inbox := rfl
@[simp] theorem State.resetBlock_outputs : s.resetBlock.outputs = s.outputs := rfl

end resetBlockFields

/-! ### The control point -/

@[simp] theorem Fsm.isRunning_idle : Fsm.idle.isRunning = false := rfl
@[simp] theorem Fsm.isRunning_running (ph : Phase) (p : Plan) : (Fsm.running ph p).isRunning = true := rfl

theorem State.controlPoint_idle {s : State} (h : s.fsm = .idle) : s.controlPoint = .idle := by
  simp [State.controlPoint, h]

theorem State.controlPoint_awaitSend {s : State} {p : Plan} (h : s.fsm = .running .awaitSend p) :
    s.controlPoint = .awaitSend := by
  simp [State.controlPoint, h]

theorem State.controlPoint_gap {s : State} {p : Plan} (h : s.fsm = .running .gap p) : s.controlPoint = .gap := by
  simp [State.controlPoint, h]

end updates

end Sys2Proof.Machine
end

