-- ==== Sys2Proof/Laws/Ops.lean ====
section
/-! SUPPORT. For each shared operation, what it can do, said once: later proofs cite these and do not unfold it. -/

namespace Sys2Proof.Machine

/-! ### CHECK_STOP and ITERATE -/

theorem limitReached_eq_true_iff {l : Option Nat} {c : Nat} :
    limitReached l c = true ↔ ∃ n, l = some n ∧ n ≤ c := by
  cases l <;> simp [limitReached]

theorem limitReached_eq_false_iff {l : Option Nat} {c : Nat} :
    limitReached l c = false ↔ ∀ n, l = some n → c < n := by
  cases l <;> simp [limitReached]

/-- No stop is due exactly when nothing was requested and the limit is not reached. -/
theorem State.checkStop_eq_none_iff {s : State} :
    s.checkStop = none ↔ s.cancelReq = false ∧ s.stopReq = false ∧ limitReached s.runLimit s.count = false := by
  unfold State.checkStop
  cases s.cancelReq <;> cases s.stopReq <;> simp

/-- The reason of a due stop is one of three, in this precedence (42_generator_fsm.md R153). -/
theorem State.checkStop_eq_some_cases {s : State} {r : Reason} (h : s.checkStop = some r) :
    (r = .cancelled ∧ s.cancelReq = true) ∨
    (r = .stopped ∧ s.cancelReq = false ∧ s.stopReq = true) ∨
    (r = .limitReached ∧ s.cancelReq = false ∧ s.stopReq = false ∧ limitReached s.runLimit s.count = true) := by
  unfold State.checkStop at h
  cases hc : s.cancelReq <;> cases hs : s.stopReq <;> simp_all

@[simp] theorem State.iterationStop_single (s : State) : s.iterationStop .single = none := rfl

@[simp] theorem State.iterationStop_continuous (s : State) : s.iterationStop .continuous = s.checkStop := rfl

/-- ITERATE ends the run at its stop check, or fails in synthesis, or emits a frame. -/
theorem State.iterate_cases (s : State) (p : Plan) :
    (∃ r, s.iterationStop p.mode = some r ∧ s.iterate p = s.endRun r) ∨
    (s.iterationStop p.mode = none ∧ ∃ e g, synthesize s.cfg p s.rng = (.error e, g) ∧
      s.iterate p = (s.setRng g).endRun (.failed e)) ∨
    (s.iterationStop p.mode = none ∧ ∃ f g, synthesize s.cfg p s.rng = (.ok f, g) ∧
      s.iterate p = ((s.setRng g).out (.send f)).setFsm (.running .awaitSend p)) := by
  unfold State.iterate
  rcases hstop : s.iterationStop p.mode with _ | r
  · rcases hsyn : synthesize s.cfg p s.rng with ⟨_ | f, g⟩ <;> simp
  · simp

/-! ### The synthesizer -/

/-- A failed synthesis fails with the plan's unimplemented option. -/
theorem synthesize_error {cfg : Config} {p : Plan} {r g : DrawSource} {e : Err}
    (h : synthesize cfg p r = (.error e, g)) : debugError p = some e ∧ g = (frameSize cfg p.size r).2 := by
  unfold synthesize at h
  cases hd : debugError p with
  | none => simp [hd] at h
  | some e' => simp [hd] at h; exact ⟨by rw [h.1], h.2.symm⟩

/-- A frame is the header and the payload of its size. -/
theorem synthesize_ok {cfg : Config} {p : Plan} {r g : DrawSource} {f : Frame}
    (h : synthesize cfg p r = (.ok f, g)) :
    debugError p = none ∧
    f = header cfg p (payloadLength (frameSize cfg p.size r).1) ++
      (payload p (payloadLength (frameSize cfg p.size r).1) (frameSize cfg p.size r).2).1 ∧
    g = (payload p (payloadLength (frameSize cfg p.size r).1) (frameSize cfg p.size r).2).2 := by
  unfold synthesize at h
  cases hd : debugError p with
  | none => simp [hd] at h; exact ⟨rfl, h.1.symm, h.2.symm⟩
  | some e' => simp [hd] at h

/-- No unimplemented option is selected exactly when the plan is neither Debug nor a single-mode plan of the Debug
sub-mode. -/
theorem debugError_eq_none_iff {p : Plan} :
    debugError p = none ↔ p.ptype ≠ .debug ∧ ¬(p.debugSub = true ∧ p.mode = .single) := by
  unfold debugError
  split
  · simp_all
  · split <;> simp_all

@[simp] theorem DrawSource.drawBytes_length (n : Nat) (r : DrawSource) : (r.drawBytes n).1.length = n := by
  induction n generalizing r with
  | zero => rfl
  | succ n ih => simp [DrawSource.drawBytes, ih]

/-- Supplied byte draws are taken in order. -/
theorem DrawSource.drawBytes_supplied (n : Nat) (r : DrawSource) (h : n ≤ r.bytes.length) :
    r.drawBytes n = (r.bytes.take n, { r with bytes := r.bytes.drop n }) := by
  induction n generalizing r with
  | zero => simp [DrawSource.drawBytes]
  | succ n ih =>
    rcases r with ⟨sizes, bytes, drawn⟩
    cases bytes with
    | nil => simp at h
    | cons b bs =>
      have := ih ⟨sizes, bs, drawn⟩ (by simpa using h)
      simp [DrawSource.drawBytes, DrawSource.drawByte, this]

/-- A payload has the length asked for, whatever the policy (Debug never gets one). -/
theorem payload_length {p : Plan} (h : p.ptype ≠ .debug) (n : Nat) (r : DrawSource) :
    (payload p n r).1.length = n := by
  unfold payload
  cases hp : p.ptype <;> simp_all

/-! ### Decoding a CTRL value -/

theorem decodeCtrl_reserved {cfg : Config} {v : Word} (h : reservedBit v = true) :
    decodeCtrl cfg v = .error (.reservedBitSet (v &&& 0xFF7F)) := by
  simp [decodeCtrl, h, correctedCtrl]

/-- The options of a value whose bit 7 is clear. -/
def optionsOf (cfg : Config) (v : Word) : ControlOptions where
  enable := enableBit v
  start := startBit v
  size := sizePolicy (sizeCode v)
  ptype := cfg.ptMap.get (packetTypeCode v).toFin
  ipgBits := cfg.ipgMap.get (ipgCode v).toFin
  mode := modeOf v
  unassigned := v &&& unassignedMask
  debugSub := debugSubmodeSelect cfg v

theorem decodeCtrl_ok {cfg : Config} {v : Word} (h : reservedBit v = false) :
    decodeCtrl cfg v = .ok (optionsOf cfg v) := by
  simp [decodeCtrl, h, optionsOf]

/-- A start attempt fails in one of three ways, in this precedence, or gives the plan (40_register_decoder.md R109,
R110). -/
theorem resolvePlan_cases (cfg : Config) (vc vd : Word) :
    (reservedBit vc = true ∧ resolvePlan cfg vc vd = .error (.reservedBitSet (vc &&& 0xFF7F))) ∨
    (reservedBit vc = false ∧ shouldRun (optionsOf cfg vc) = false ∧
      resolvePlan cfg vc vd = .error (.notEnabledOrStarted (enableBit vc) (startBit vc))) ∨
    (reservedBit vc = false ∧ shouldRun (optionsOf cfg vc) = true ∧
      refusesUnassigned cfg (optionsOf cfg vc) = true ∧
      resolvePlan cfg vc vd =
        .error (.unimplementedOption .unassignedCtrlBits (.bits (vc &&& unassignedMask)))) ∨
    (reservedBit vc = false ∧ shouldRun (optionsOf cfg vc) = true ∧
      refusesUnassigned cfg (optionsOf cfg vc) = false ∧
      resolvePlan cfg vc vd = .ok {
        size := sizePolicy (sizeCode vc)
        ptype := cfg.ptMap.get (packetTypeCode vc).toFin
        ipgBits := cfg.ipgMap.get (ipgCode vc).toFin
        mode := modeOf vc
        dst := macOf (nibble vd 3)
        src := macOf (nibble vd 2)
        fill := byte vd 0
        debugSub := debugSubmodeSelect cfg vc }) := by
  cases h7 : reservedBit vc with
  | true => simp [resolvePlan, decodeCtrl_reserved h7]
  | false =>
    cases hrun : shouldRun (optionsOf cfg vc) with
    | false => simp [resolvePlan, decodeCtrl_ok h7, hrun]; exact ⟨rfl, rfl⟩
    | true =>
      cases href : refusesUnassigned cfg (optionsOf cfg vc) with
      | true => simp [resolvePlan, decodeCtrl_ok h7, hrun, href]; rfl
      | false => simp [resolvePlan, decodeCtrl_ok h7, hrun, href]; exact ⟨rfl, rfl, rfl, rfl, rfl, rfl, rfl, rfl⟩

/-! ### Host operations -/

/-- A CTRL write in Idle is rejected, or starts a run. -/
theorem State.writeCtrlIdle_cases (s : State) (v : Word) :
    (∃ e, resolvePlan s.cfg v s.data = .error e ∧
      s.writeCtrlIdle v = (s.writeCtrl v).out (.resp (.rejected e))) ∨
    (∃ p, resolvePlan s.cfg v s.data = .ok p ∧
      s.writeCtrlIdle v = (((s.writeCtrl v).out (.resp .accepted)).freshRun).iterate p) := by
  unfold State.writeCtrlIdle
  cases resolvePlan s.cfg v s.data <;> simp

/-- A CTRL write in Running is rejected, or stops a continuous run, or is only acknowledged. -/
theorem State.writeCtrlRunning_cases (s : State) (ph : Phase) (p : Plan) (v : Word) :
    (reservedBit v = true ∧
      s.writeCtrlRunning ph p v = (s.writeCtrl v).out (.resp (.rejected (.reservedBitSet (v &&& 0xFF7F))))) ∨
    (reservedBit v = false ∧ p.mode = .continuous ∧ stopTest s.cfg.stopRule (optionsOf s.cfg v) = true ∧
      ph = .gap ∧ s.writeCtrlRunning ph p v = ((s.writeCtrl v).out (.resp .ack)).endRun .stopped) ∨
    (reservedBit v = false ∧ p.mode = .continuous ∧ stopTest s.cfg.stopRule (optionsOf s.cfg v) = true ∧
      ph = .awaitSend ∧ s.writeCtrlRunning ph p v = ((s.writeCtrl v).out (.resp .ack)).setStop true) ∨
    (reservedBit v = false ∧ ¬(p.mode = .continuous ∧ stopTest s.cfg.stopRule (optionsOf s.cfg v) = true) ∧
      s.writeCtrlRunning ph p v = (s.writeCtrl v).out (.resp .ack)) := by
  unfold State.writeCtrlRunning
  cases h7 : reservedBit v with
  | true => simp [decodeCtrl_reserved h7]
  | false =>
    rw [decodeCtrl_ok h7]
    by_cases hstop : p.mode = .continuous ∧ stopTest s.cfg.stopRule (optionsOf s.cfg v) = true
    · cases ph <;> simp [hstop, State.requestStop]
    · simp [hstop]

/-- CANCEL is acknowledged, and in a continuous run recorded or the end of it. -/
theorem State.hostCancel_cases (s : State) :
    (s.fsm = .idle ∧ s.hostCancel = s.out (.resp .ack)) ∨
    (∃ p, s.fsm = .running .awaitSend p ∧ p.mode = .continuous ∧
      s.hostCancel = (s.out (.resp .ack)).setCancel true) ∨
    (∃ p, s.fsm = .running .awaitSend p ∧ p.mode = .single ∧ s.hostCancel = s.out (.resp .ack)) ∨
    (∃ p, s.fsm = .running .gap p ∧ s.hostCancel = (s.out (.resp .ack)).endRun .cancelled) := by
  unfold State.hostCancel
  rcases hf : s.fsm with _ | ⟨_ | _, p⟩
  · simp
  · cases hm : p.mode <;> simp [hm]
  · simp

/-- After an accepted frame the run ends, or the pacing delay begins. -/
theorem State.frameAccepted_cases (s : State) (p : Plan) :
    (p.mode = .single ∧
      s.frameAccepted p = (s.setCount (countNext s.cfg s.count)).endRun .completed) ∨
    (p.mode = .continuous ∧ ∃ r, (s.setCount (countNext s.cfg s.count)).checkStop = some r ∧
      s.frameAccepted p = (s.setCount (countNext s.cfg s.count)).endRun r) ∨
    (p.mode = .continuous ∧ (s.setCount (countNext s.cfg s.count)).checkStop = none ∧
      s.frameAccepted p =
        ((s.setCount (countNext s.cfg s.count)).setFsm (.running .gap p)).out (.gapStart p.ipgBits)) := by
  unfold State.frameAccepted State.afterFrame
  cases hm : p.mode with
  | single => simp
  | continuous =>
    cases hc : (s.setCount (countNext s.cfg s.count)).checkStop <;> simp

/-! ### Taking an input -/

theorem State.takeInput_nil {s : State} (h : s.inbox = []) : s.takeInput = none := by
  simp [State.takeInput, h]

theorem State.takeInput_cons {s : State} {i : Input} {rest : List Input} (h : s.inbox = i :: rest) :
    s.takeInput = some (i, s.setInbox rest) := by
  simp [State.takeInput, h]

end Sys2Proof.Machine
end

