-- ==== Sys2Proof/Laws/Bits.lean ====
section
/-! SUPPORT. The fields of a register value as slices of its number (30_encoding.md R75), and the fields of the values
that each row of the opcode table encodes. -/

namespace Sys2Proof

open Machine

/-! ### Fields as numbers -/

theorem enableBit_eq (v : Word) : enableBit v = decide (v.toNat % 2 = 1) := by
  simp [enableBit, BitVec.getLsbD, Nat.testBit_eq_decide_div_mod_eq]

theorem startBit_eq (v : Word) : startBit v = decide (v.toNat / 2 % 2 = 1) := by
  simp [startBit, BitVec.getLsbD, Nat.testBit_eq_decide_div_mod_eq]

theorem reservedBit_eq (v : Word) : reservedBit v = decide (v.toNat / 128 % 2 = 1) := by
  simp [reservedBit, BitVec.getLsbD, Nat.testBit_eq_decide_div_mod_eq]

theorem modeOf_eq_single_iff (v : Word) : modeOf v = .single ↔ v.toNat / 8192 % 2 = 1 := by
  simp [modeOf, BitVec.getLsbD, Nat.testBit_eq_decide_div_mod_eq]

/-- A field is the stated shift and mask of the value. -/
theorem bitField_toNat (v : Word) (lo w : Nat) : (bitField v lo w).toNat = v.toNat / 2 ^ lo % 2 ^ w := by
  simp [bitField, BitVec.extractLsb'_toNat, Nat.shiftRight_eq_div_pow]

/-! ### Fields of a disjunction of parts -/

theorem bitField_or (a b : Word) (lo w : Nat) : bitField (a ||| b) lo w = bitField a lo w ||| bitField b lo w :=
  BitVec.extractLsb'_or

theorem getLsbD_within {m u : Word} {i : Nat} (h : within m u = true) (hm : m.getLsbD i = false) :
    u.getLsbD i = false := by
  have hu : u &&& m = u := by simpa [within] using h
  rw [← hu, BitVec.getLsbD_and, hm, Bool.and_false]

theorem bitField_within {m u : Word} {lo w : Nat} (h : within m u = true) (hm : bitField m lo w = 0) :
    bitField u lo w = 0 := by
  have hu : u &&& m = u := by simpa [within] using h
  rw [← hu]
  unfold bitField at *
  rw [BitVec.extractLsb'_and, hm]
  simp

theorem and_within {m u k : Word} (h : within m u = true) (hk : m &&& k = m) : u &&& k = u := by
  have hu : u &&& m = u := by simpa [within] using h
  rw [← hu, BitVec.and_assoc, hk]

/-! ### The fields of a start row's value

`q` is one of the fixed patterns, so each side fact about it is closed. -/

section start
variable (q u : Word) (s : BitVec 3) (g : BitVec 2)

theorem getLsbD_startWord {i : Nat} (hu : within unassignedMask u = true) (hi : unassignedMask.getLsbD i = false)
    (hs : ∀ s : BitVec 3, ((s.setWidth 16 : Word) <<< 4).getLsbD i = false)
    (hg : ∀ g : BitVec 2, ((g.setWidth 16 : Word) <<< 10).getLsbD i = false) :
    (startWord q s g u).getLsbD i = q.getLsbD i := by
  unfold startWord
  rw [BitVec.getLsbD_or, BitVec.getLsbD_or, BitVec.getLsbD_or, getLsbD_within hu hi, hs, hg]
  simp

theorem enableBit_startWord (hu : within unassignedMask u = true) :
    enableBit (startWord q s g u) = q.getLsbD 0 :=
  getLsbD_startWord q u s g hu (by decide) (by decide) (by decide)

theorem startBit_startWord (hu : within unassignedMask u = true) :
    startBit (startWord q s g u) = q.getLsbD 1 :=
  getLsbD_startWord q u s g hu (by decide) (by decide) (by decide)

theorem reservedBit_startWord (hu : within unassignedMask u = true) :
    reservedBit (startWord q s g u) = q.getLsbD 7 :=
  getLsbD_startWord q u s g hu (by decide) (by decide) (by decide)

theorem modeOf_startWord (hu : within unassignedMask u = true) : modeOf (startWord q s g u) = modeOf q := by
  unfold modeOf
  rw [getLsbD_startWord q u s g hu (by decide) (by decide) (by decide)]

theorem packetTypeCode_startWord (hu : within unassignedMask u = true) :
    packetTypeCode (startWord q s g u) = packetTypeCode q := by
  unfold packetTypeCode startWord
  rw [bitField_or, bitField_or, bitField_or, bitField_within hu (by decide),
    show ∀ s : BitVec 3, bitField ((s.setWidth 16 : Word) <<< 4) 8 2 = 0 by decide,
    show ∀ g : BitVec 2, bitField ((g.setWidth 16 : Word) <<< 10) 8 2 = 0 by decide]
  simp

theorem sizeCode_startWord (hu : within unassignedMask u = true) (hq : sizeCode q = 0) :
    sizeCode (startWord q s g u) = s := by
  unfold sizeCode at *
  unfold startWord
  rw [bitField_or, bitField_or, bitField_or, bitField_within hu (by decide), hq,
    show ∀ s : BitVec 3, bitField ((s.setWidth 16 : Word) <<< 4) 4 3 = s by decide,
    show ∀ g : BitVec 2, bitField ((g.setWidth 16 : Word) <<< 10) 4 3 = 0 by decide]
  simp

theorem ipgCode_startWord (hu : within unassignedMask u = true) (hq : ipgCode q = 0) :
    ipgCode (startWord q s g u) = g := by
  unfold ipgCode at *
  unfold startWord
  rw [bitField_or, bitField_or, bitField_or, bitField_within hu (by decide), hq,
    show ∀ s : BitVec 3, bitField ((s.setWidth 16 : Word) <<< 4) 10 2 = 0 by decide,
    show ∀ g : BitVec 2, bitField ((g.setWidth 16 : Word) <<< 10) 10 2 = g by decide]
  simp

theorem unassigned_startWord (hu : within unassignedMask u = true) (hq : q &&& unassignedMask = 0) :
    startWord q s g u &&& unassignedMask = u := by
  unfold startWord
  rw [BitVec.and_or_distrib_right, BitVec.and_or_distrib_right, BitVec.and_or_distrib_right, hq,
    show ∀ s : BitVec 3, ((s.setWidth 16 : Word) <<< 4) &&& unassignedMask = 0 by decide,
    show ∀ g : BitVec 2, ((g.setWidth 16 : Word) <<< 10) &&& unassignedMask = 0 by decide,
    and_within hu (by decide)]
  simp

end start

/-! ### The fields of the other rows' values -/

section other
variable (q o : Word)

theorem enableBit_or (ho : within notrunOther o = true) : enableBit (q ||| o) = q.getLsbD 0 := by
  unfold enableBit
  rw [BitVec.getLsbD_or, getLsbD_within ho (by decide), Bool.or_false]

theorem startBit_or (ho : within notrunOther o = true) : startBit (q ||| o) = q.getLsbD 1 := by
  unfold startBit
  rw [BitVec.getLsbD_or, getLsbD_within ho (by decide), Bool.or_false]

theorem reservedBit_or (ho : within notrunOther o = true) : reservedBit (q ||| o) = q.getLsbD 7 := by
  unfold reservedBit
  rw [BitVec.getLsbD_or, getLsbD_within ho (by decide), Bool.or_false]

/-- A value with bit 7 in a part has bit 7. -/
theorem reservedBit_or_left (h : q.getLsbD 7 = true) : reservedBit (q ||| o) = true := by
  unfold reservedBit
  rw [BitVec.getLsbD_or, h, Bool.true_or]

end other

/-- A two-bit code as an index of a parameter map. -/
theorem Map4.toList_getElem? {α : Type} (m : Map4 α) (i : Fin 4) : m.toList[i.val]? = some (m.get i) := by
  match i with
  | 0 => rfl
  | 1 => rfl
  | 2 => rfl
  | 3 => rfl

end Sys2Proof
end

