-- ==== Sys2Proof/Laws/Exec.lean ====
section
/-! SUPPORT. What an instruction can do, said once: it is the event it encodes, performed at the control point. -/

namespace Sys2Proof.Machine

/-- The event performed at the control point (42_generator_fsm.md R151). -/
def perform (e : Event) (s : State) : Host.Outcome State Fault Refusal :=
  match e with
  | .wrCtrl v => .next (s.hostWriteCtrl v)
  | .wrData v => .next (s.hostWriteData v)
  | .setLimit l => .next (s.hostSetLimit l)
  | .cancel => .next s.hostCancel
  | .sendDoneOk => execSendDoneOk s
  | .sendDoneErr t => execSendDoneErr t s
  | .gapElapsed => execGapElapsed s

/-- An instruction does what the event it encodes does. -/
theorem exec_eq_perform (i : Instr) (s : State) : exec i s = perform (encode i) s := by
  cases i <;> rfl

/-- If an instruction completes, one of these happened. -/
theorem exec_next_cases {i : Instr} {s t : State} (h : exec i s = .next t) :
    (∃ v, encode i = .wrCtrl v ∧ s.fsm = .idle ∧ t = s.writeCtrlIdle v) ∨
    (∃ v ph p, encode i = .wrCtrl v ∧ s.fsm = .running ph p ∧ t = s.writeCtrlRunning ph p v) ∨
    (∃ v, encode i = .wrData v ∧ t = (s.writeData v).out (.resp .ack)) ∨
    (∃ l, encode i = .setLimit l ∧ t = (s.writeLimit l).out (.resp .ack)) ∨
    (encode i = .cancel ∧ t = s.hostCancel) ∨
    (∃ p, encode i = .sendDoneOk ∧ s.fsm = .running .awaitSend p ∧ t = s.frameAccepted p) ∨
    (∃ p e, encode i = .sendDoneErr e ∧ s.fsm = .running .awaitSend p ∧
      t = s.endRun (.failed (.transportError e))) ∨
    (∃ p, encode i = .gapElapsed ∧ s.fsm = .running .gap p ∧ t = s.iterate p) := by
  rw [exec_eq_perform] at h
  cases he : encode i with
  | wrCtrl v =>
    rw [he] at h
    simp only [perform, State.hostWriteCtrl, Host.Outcome.next.injEq] at h
    rcases hf : s.fsm with _ | ⟨ph, p⟩ <;> rw [hf] at h
    · exact .inl ⟨v, rfl, rfl, h.symm⟩
    · exact .inr (.inl ⟨v, ph, p, rfl, rfl, h.symm⟩)
  | wrData v =>
    rw [he] at h
    simp only [perform, Host.Outcome.next.injEq] at h
    exact .inr (.inr (.inl ⟨v, rfl, h.symm⟩))
  | setLimit l =>
    rw [he] at h
    simp only [perform, Host.Outcome.next.injEq] at h
    exact .inr (.inr (.inr (.inl ⟨l, rfl, h.symm⟩)))
  | cancel =>
    rw [he] at h
    simp only [perform, Host.Outcome.next.injEq] at h
    exact .inr (.inr (.inr (.inr (.inl ⟨rfl, h.symm⟩))))
  | sendDoneOk =>
    rw [he] at h
    rcases hf : s.fsm with _ | ⟨_ | _, p⟩ <;> simp [perform, execSendDoneOk, hf] at h
    exact .inr (.inr (.inr (.inr (.inr (.inl ⟨p, rfl, rfl, h.symm⟩)))))
  | sendDoneErr e =>
    rw [he] at h
    rcases hf : s.fsm with _ | ⟨_ | _, p⟩ <;> simp [perform, execSendDoneErr, hf] at h
    exact .inr (.inr (.inr (.inr (.inr (.inr (.inl ⟨p, e, rfl, rfl, h.symm⟩))))))
  | gapElapsed =>
    rw [he] at h
    rcases hf : s.fsm with _ | ⟨_ | _, p⟩ <;> simp [perform, execGapElapsed, hf] at h
    exact .inr (.inr (.inr (.inr (.inr (.inr (.inr ⟨p, rfl, rfl, h.symm⟩))))))

/-- If a step completes, it held with nothing to take, or was the reset event, or ran the decoded instruction. -/
theorem step_next_cases {s t : State} (h : step s = .next t) :
    (s.inbox = [] ∧ t = s) ∨
    (∃ rest, s.inbox = .reset :: rest ∧ t = (s.setInbox rest).resetBlock) ∨
    (∃ e rest i, s.inbox = .event e :: rest ∧ decode s.fsm.isRunning e = .ok i ∧
      exec i (s.setInbox rest) = .next t) := by
  unfold step State.takeInput at h
  rcases hi : s.inbox with _ | ⟨_ | e, rest⟩ <;> simp [hi] at h
  · exact .inl ⟨rfl, h.symm⟩
  · exact .inr (.inl ⟨rest, rfl, h.symm⟩)
  · unfold performEvent State.decodeEvent at h
    rcases hd : decode s.fsm.isRunning e with err | i <;> simp [hd] at h
    exact .inr (.inr ⟨e, rest, i, rfl, hd, h⟩)

end Sys2Proof.Machine
end

