-- ==== Sys2Proof/Laws/Literal.lean ====
section
/-! SUPPORT. The host-side literal parser: what each of its functions can answer. -/

namespace Sys2Proof.Machine

theorem stripSeparators_eq_filter (cs : List Char) :
    stripSeparators cs = cs.filter (fun c => c ≠ '_' && c.toNat ≠ 39) := by
  unfold stripSeparators isSeparator
  congr 1
  funext c
  simp

/-- Without one of the three prefixes a literal is decimal (45_host_literals.md R192). -/
theorem splitRadix_decimal {t : List Char}
    (h : ∀ ds, t ≠ '0' :: 'x' :: ds ∧ t ≠ '0' :: 'o' :: ds ∧ t ≠ '0' :: 'b' :: ds) : splitRadix t = (.decimal, t) := by
  unfold splitRadix
  split <;> simp_all

/-- A character with a digit value is that digit's character, in one case or the other. -/
theorem eq_digitChar_of_digitValue {c : Char} {d : Nat} (h : digitValue c = some d) :
    d < 16 ∧ (c = digitChar d true ∨ c = digitChar d false) := by
  have hc : c = Char.ofNat c.toNat := (Char.ofNat_toNat c).symm
  unfold digitValue at h
  simp only at h
  unfold digitChar
  split at h
  · simp only [Option.some.injEq] at h
    refine ⟨by omega, .inl ?_⟩
    rw [hc, if_pos (by omega)]
    exact congrArg Char.ofNat (by omega)
  · split at h
    · simp only [Option.some.injEq] at h
      refine ⟨by omega, .inr ?_⟩
      rw [hc, if_neg (by omega), if_neg (by simp)]
      exact congrArg Char.ofNat (by omega)
    · split at h
      · simp only [Option.some.injEq] at h
        refine ⟨by omega, .inl ?_⟩
        rw [hc, if_neg (by omega), if_pos rfl]
        exact congrArg Char.ofNat (by omega)
      · cases h

/-- A digit of a radix is below it. -/
theorem digitIn_eq_some {base d : Nat} {c : Char} (h : digitIn base c = some d) : digitValue c = some d ∧ d < base := by
  unfold digitIn at h
  split at h
  · split at h
    · cases h
      exact ⟨by assumption, by assumption⟩
    · cases h
  · cases h

end Sys2Proof.Machine
end

