-- ==== Sys2Proof/Laws/PerInstr.lean ====
section
/-! SUPPORT. Facts about each instruction as syntax, one lemma per constructor: the CTRL value it encodes has the fixed
bits of its row of spec/opcode_table.json. -/

namespace Sys2Proof.Laws

/-- The mask and match of the instruction's row in spec/opcode_table.json. -/
def rowBits : Instr → Option (Word × Word)
  | .ctrlReserved _ => some (0x0080, 0x0080)
  | .ctrlNotrun00 _ => some (0x0083, 0x0000)
  | .ctrlNotrun01 _ => some (0x0083, 0x0001)
  | .ctrlNotrun10 _ => some (0x0083, 0x0002)
  | .ctrlStartDebug _ _ _ _ => some (0x0383, 0x0303)
  | .ctrlStartContRandom _ _ _ => some (0x2383, 0x0003)
  | .ctrlStartContIncr _ _ _ => some (0x2383, 0x0103)
  | .ctrlStartContPredef _ _ _ => some (0x2383, 0x0203)
  | .ctrlStartSingleRandom _ _ _ => some (0x2383, 0x2003)
  | .ctrlStartSingleIncr _ _ _ => some (0x2383, 0x2103)
  | .ctrlStartSinglePredef _ _ _ => some (0x2383, 0x2203)
  | .ctrlrReserved _ _ _ => some (0x0080, 0x0080)
  | .ctrlrStop _ => some (0x0083, 0x0000)
  | .ctrlrNostop01 _ => some (0x0083, 0x0001)
  | .ctrlrNostop10 _ => some (0x0083, 0x0002)
  | .ctrlrNostop11 _ => some (0x0083, 0x0003)
  | .wrData _ _ _ => some (0x0000, 0x0000)
  | .setLimit _ => none
  | .cancel => none
  | .sendDoneOk => none
  | .sendDoneErr _ => none
  | .gapElapsed => none

/-- The register value an event carries. -/
def eventWord : Event → Option Word
  | .wrCtrl v => some v
  | .wrData v => some v
  | .setLimit _ => none
  | .cancel => none
  | .sendDoneOk => none
  | .sendDoneErr _ => none
  | .gapElapsed => none

/-- A well-formed instruction's value has its row's fixed bits. -/
def RowBits.Statement (i : Instr) : Prop :=
  i.wellFormed = true → ∀ m p v, rowBits i = some (m, p) → eventWord (encode i) = some v → v &&& m = p

theorem and_eq_of_within {m w k : Word} (h : within m w = true) (hk : m &&& k = 0) : w &&& k = 0 := by
  have hw : w &&& m = w := by simpa [within] using h
  rw [← hw, BitVec.and_assoc, hk]
  simp

theorem row_of_other {q w m : Word} (hw : w &&& m = 0) : (q ||| w) &&& m = q &&& m := by
  rw [BitVec.and_or_distrib_right, hw]
  simp

theorem startWord_and {q u m : Word} (s : BitVec 3) (g : BitVec 2) (hu : u &&& m = 0)
    (hs : ∀ s : BitVec 3, (s.setWidth 16 <<< 4) &&& m = 0) (hg : ∀ g : BitVec 2, (g.setWidth 16 <<< 10) &&& m = 0) :
    startWord q s g u &&& m = q &&& m := by
  unfold startWord
  rw [row_of_other hu, BitVec.and_or_distrib_right, hg g, BitVec.and_or_distrib_right, hs s]
  simp

theorem size_outside_2383 : ∀ s : BitVec 3, ((s.setWidth 16 : Word) <<< 4) &&& 0x2383 = 0 := by decide
theorem ipg_outside_2383 : ∀ g : BitVec 2, ((g.setWidth 16 : Word) <<< 10) &&& 0x2383 = 0 := by decide
theorem size_outside_0383 : ∀ s : BitVec 3, ((s.setWidth 16 : Word) <<< 4) &&& 0x0383 = 0 := by decide
theorem ipg_outside_0383 : ∀ g : BitVec 2, ((g.setWidth 16 : Word) <<< 10) &&& 0x0383 = 0 := by decide

/-- A start row of mask 0x2383 keeps its fixed bits. -/
theorem start_row {q u : Word} (hq : q &&& 0x2383 = q) (s : BitVec 3) (g : BitVec 2)
    (h : within unassignedMask u = true) : startWord q s g u &&& 0x2383 = q :=
  (startWord_and s g (and_eq_of_within h (by decide)) size_outside_2383 ipg_outside_2383).trans hq

/-- A row of mask 0x0083 keeps its fixed bits. -/
theorem run_row {q o : Word} (hq : q &&& 0x0083 = q) (h : within notrunOther o = true) : (q ||| o) &&& 0x0083 = q :=
  (row_of_other (and_eq_of_within h (by decide))).trans hq

section rows

theorem RowBits.ctrlReserved (o : Word) : RowBits.Statement (.ctrlReserved o) := by
  rintro h m p v ⟨⟩ ⟨⟩
  exact (row_of_other (and_eq_of_within h (by decide))).trans (by decide)

theorem RowBits.ctrlNotrun00 (o : Word) : RowBits.Statement (.ctrlNotrun00 o) := by
  rintro h m p v ⟨⟩ ⟨⟩; exact run_row (by decide) h

theorem RowBits.ctrlNotrun01 (o : Word) : RowBits.Statement (.ctrlNotrun01 o) := by
  rintro h m p v ⟨⟩ ⟨⟩; exact run_row (by decide) h

theorem RowBits.ctrlNotrun10 (o : Word) : RowBits.Statement (.ctrlNotrun10 o) := by
  rintro h m p v ⟨⟩ ⟨⟩; exact run_row (by decide) h

theorem RowBits.ctrlStartDebug (s : BitVec 3) (g : BitVec 2) (md : Mode) (u : Word) :
    RowBits.Statement (.ctrlStartDebug s g md u) := by
  rintro h m p v ⟨⟩ ⟨⟩
  exact (startWord_and s g (and_eq_of_within h (by decide)) size_outside_0383 ipg_outside_0383).trans
    (by cases md <;> decide)

theorem RowBits.ctrlStartContRandom (s : BitVec 3) (g : BitVec 2) (u : Word) :
    RowBits.Statement (.ctrlStartContRandom s g u) := by
  rintro h m p v ⟨⟩ ⟨⟩; exact start_row (by decide) s g h

theorem RowBits.ctrlStartContIncr (s : BitVec 3) (g : BitVec 2) (u : Word) :
    RowBits.Statement (.ctrlStartContIncr s g u) := by
  rintro h m p v ⟨⟩ ⟨⟩; exact start_row (by decide) s g h

theorem RowBits.ctrlStartContPredef (s : BitVec 3) (g : BitVec 2) (u : Word) :
    RowBits.Statement (.ctrlStartContPredef s g u) := by
  rintro h m p v ⟨⟩ ⟨⟩; exact start_row (by decide) s g h

theorem RowBits.ctrlStartSingleRandom (s : BitVec 3) (g : BitVec 2) (u : Word) :
    RowBits.Statement (.ctrlStartSingleRandom s g u) := by
  rintro h m p v ⟨⟩ ⟨⟩; exact start_row (by decide) s g h

theorem RowBits.ctrlStartSingleIncr (s : BitVec 3) (g : BitVec 2) (u : Word) :
    RowBits.Statement (.ctrlStartSingleIncr s g u) := by
  rintro h m p v ⟨⟩ ⟨⟩; exact start_row (by decide) s g h

theorem RowBits.ctrlStartSinglePredef (s : BitVec 3) (g : BitVec 2) (u : Word) :
    RowBits.Statement (.ctrlStartSinglePredef s g u) := by
  rintro h m p v ⟨⟩ ⟨⟩; exact start_row (by decide) s g h

theorem RowBits.ctrlrReserved (e t : Bool) (o : Word) : RowBits.Statement (.ctrlrReserved e t o) := by
  rintro h m p v ⟨⟩ ⟨⟩
  exact (row_of_other (and_eq_of_within h (by decide))).trans (by cases e <;> cases t <;> decide)

theorem RowBits.ctrlrStop (o : Word) : RowBits.Statement (.ctrlrStop o) := by
  rintro h m p v ⟨⟩ ⟨⟩; exact run_row (by decide) h

theorem RowBits.ctrlrNostop01 (o : Word) : RowBits.Statement (.ctrlrNostop01 o) := by
  rintro h m p v ⟨⟩ ⟨⟩; exact run_row (by decide) h

theorem RowBits.ctrlrNostop10 (o : Word) : RowBits.Statement (.ctrlrNostop10 o) := by
  rintro h m p v ⟨⟩ ⟨⟩; exact run_row (by decide) h

theorem RowBits.ctrlrNostop11 (o : Word) : RowBits.Statement (.ctrlrNostop11 o) := by
  rintro h m p v ⟨⟩ ⟨⟩; exact run_row (by decide) h

theorem RowBits.wrData (d s : BitVec 4) (f : Byte) : RowBits.Statement (.wrData d s f) := by
  rintro h m p v ⟨⟩ ⟨⟩; simp

theorem RowBits.setLimit (l : Option Nat) : RowBits.Statement (.setLimit l) := by
  rintro h m p v ⟨⟩

theorem RowBits.cancel : RowBits.Statement .cancel := by
  rintro h m p v ⟨⟩

theorem RowBits.sendDoneOk : RowBits.Statement .sendDoneOk := by
  rintro h m p v ⟨⟩

theorem RowBits.sendDoneErr (e : TransportInfo) : RowBits.Statement (.sendDoneErr e) := by
  rintro h m p v ⟨⟩

theorem RowBits.gapElapsed : RowBits.Statement .gapElapsed := by
  rintro h m p v ⟨⟩

end rows

end Sys2Proof.Laws
end

