-- ==== Sys2Proof/Laws/Start.lean ====
section
/-! SUPPORT. The start rows: what their fixed bits hold, and the plan that each of their values resolves to, under every
PT_MAP. -/

namespace Sys2Proof.Machine

/-- The fixed bits of a start row: both run bits, bit 7 clear, and no operand bit (30_encoding.md R77 rows 5 to 11). -/
structure StartPattern (q : Word) : Prop where
  enable : q.getLsbD 0 = true
  start : q.getLsbD 1 = true
  reserved : q.getLsbD 7 = false
  unassigned : q &&& unassignedMask = 0
  size : sizeCode q = 0
  ipg : ipgCode q = 0

/-- A start row writes its value, made of a start pattern that holds its code and mode and of its operands. -/
theorem startRows_spec {c : BitVec 3} {g : BitVec 2} {u : Word} {w : StartRow} (h : w ∈ startRows c g u) :
    (∀ s, exec w.instr s = .next (s.hostWriteCtrl w.value)) ∧
    ∃ q, StartPattern q ∧ w.value = startWord q c g u ∧ modeOf q = w.mode ∧ (packetTypeCode q).toFin = w.code := by
  simp only [startRows, List.mem_cons, List.not_mem_nil, or_false] at h
  rcases h with rfl | rfl | rfl | rfl | rfl | rfl | rfl | rfl <;>
    exact ⟨fun s => rfl, _, ⟨by decide, by decide, by decide, by decide, by decide, by decide⟩, rfl, rfl, rfl⟩

theorem sizePolicy_eq_tableSize : ∀ c : BitVec 3, sizePolicy c = tableSize c := by decide

/-- The plan of a start value that the unassigned-bits policy lets pass (40_register_decoder.md R109). -/
theorem resolvePlan_startWord {s : State} {q u : Word} (c : BitVec 3) (g : BitVec 2) (hq : StartPattern q)
    (hu : within unassignedMask u = true) (hp : s.cfg.unassignedPolicy = .ignore ∨ u = 0) :
    resolvePlan s.cfg (startWord q c g u) s.data =
      .ok (startPlan s c g (s.cfg.ptMap.get (packetTypeCode q).toFin) (modeOf q)
        (s.cfg.debugSubmode.contains (startWord q c g u))) := by
  have hrun : shouldRun (optionsOf s.cfg (startWord q c g u)) = true := by
    simp only [shouldRun, optionsOf, enableBit_startWord q u c g hu, startBit_startWord q u c g hu, hq.enable, hq.start]
    rfl
  have href : refusesUnassigned s.cfg (optionsOf s.cfg (startWord q c g u)) = false := by
    simp only [refusesUnassigned, optionsOf, unassigned_startWord q u c g hu hq.unassigned]
    rcases hp with h | h <;> simp [h]
  rcases resolvePlan_cases s.cfg (startWord q c g u) s.data with ⟨h, _⟩ | ⟨_, h, _⟩ | ⟨_, _, h, _⟩ | ⟨_, _, _, h⟩
  · rw [reservedBit_startWord q u c g hu, hq.reserved] at h
    cases h
  · rw [hrun] at h
    cases h
  · rw [href] at h
    cases h
  · rw [h, sizeCode_startWord q u c g hu hq.size, ipgCode_startWord q u c g hu hq.ipg,
      packetTypeCode_startWord q u c g hu, modeOf_startWord q u c g hu, sizePolicy_eq_tableSize]
    rfl

end Sys2Proof.Machine
end

