-- ==== Sys2Proof/Laws/Talk.lean ====
section
/-! SUPPORT. The conversation after a history of outputs, for each way to build one. -/

namespace Sys2Proof.Machine

@[simp] theorem Talk.after_nil (t : Talk) : Talk.after t [] = some t := rfl

theorem Talk.after_cons (t : Talk) (o : Output) (os : List Output) :
    Talk.after t (o :: os) = (t.next o).bind (fun t' => Talk.after t' os) := by
  simp only [Talk.after]
  cases t.next o <;> rfl

/-- A longer history goes on from where the shorter one left the conversation. -/
theorem Talk.after_append (t : Talk) (a b : List Output) :
    Talk.after t (a ++ b) = (Talk.after t a).bind (fun t' => Talk.after t' b) := by
  induction a generalizing t with
  | nil => rfl
  | cons o os ih =>
    rw [List.cons_append, Talk.after_cons, Talk.after_cons]
    cases t.next o <;> simp [ih]

/-- A legal conversation goes on with outputs that continue it from the control point. -/
theorem State.Conversing.after_append {s : State} (h : s.Conversing) (new : List Output) :
    Talk.after .quiet (s.outputs ++ new) = Talk.after s.controlPoint.talk new := by
  rw [Talk.after_append, h]
  rfl

end Sys2Proof.Machine
end

