-- ==== Sys2Proof/Tests/Slice0.lean ====
section
/-! SUPPORT. Tests of the model by one step or one function each, with expected results from the spec (95_test_vectors.md
unless another file is named), the refusals of `WellFormed`, and a witness for the hypotheses of every statement that
has some. -/

namespace Sys2Proof.Tests

open Sys2Proof.Machine

/-! ### Small states -/

/-- A plan of size 64 with the addresses and fill of DATA 0x9F55. -/
def plan (t : PacketType) (m : Mode) : Plan where
  size := .fixed 64
  ptype := t
  ipgBits := 48
  mode := m
  dst := macOf 0x9
  src := macOf 0xF
  fill := 0x55
  debugSub := false

/-- A ByteIncrement run with a frame in flight and `n` frames counted. -/
def flying (m : Mode) (n : Nat) : State :=
  { State.reset with fsm := .running .awaitSend (plan .byteIncrement m), count := n }

/-- A continuous ByteIncrement run in its pacing delay with `n` frames counted. -/
def pacing (n : Nat) : State := { State.reset with fsm := .running .gap (plan .byteIncrement .continuous), count := n }

/-- The block after reset with the parameters `c`. -/
def withConfig (c : Config) : State := { State.reset with cfg := c }

/-- The `Refuse` policy. -/
def refuse : Config := { Config.standard with unassignedPolicy := .refuse }

/-- The `EitherClear` stop rule. -/
def eitherClear : Config := { Config.standard with stopRule := .eitherClear }

/-- A parameter that selects the Debug sub-mode for the three single-mode start values. -/
def submode : Config := { Config.standard with debugSubmode := [0x2003, 0x2103, 0x2203] }

/-- A PT_MAP other than the default: the codes 0 to 3 select Debug, Predefined, ByteIncrement, Random. -/
def remapped : Config := { Config.standard with ptMap := ⟨.debug, .predefined, .byteIncrement, .random⟩ }

/-- A single-mode run whose counter of 8 bits is at its top. -/
def narrow : State := { flying .single 255 with cfg := { Config.standard with countWidth := some 8 } }

/-- One thing about the next state, where there is one. -/
def seen {α : Type} (f : State → α) (o : Host.Outcome State Fault Refusal) : Option α :=
  match o with
  | .next t => some (f t)
  | .fault _ => none
  | .refused _ => none

/-- Whether the outcome is a refusal by this reason. -/
def refusedBy (r : Refusal) (o : Host.Outcome State Fault Refusal) : Bool :=
  match o with
  | .next _ => false
  | .fault _ => false
  | .refused q => q = r

/-- What an event does to the block: decoded and executed in one step. -/
def afterEvent {α : Type} (f : State → α) (e : Event) (s : State) : Option α :=
  seen f (step { s with inbox := [.event e] })

/-! ### WellFormed refuses an operand outside its places -/

theorem test_illformed_ctrlReserved : (Instr.ctrlReserved 0x0080).wellFormed = false := by decide
theorem test_illformed_ctrlNotrun00 : (Instr.ctrlNotrun00 0x0001).wellFormed = false := by decide
theorem test_illformed_ctrlNotrun01 : (Instr.ctrlNotrun01 0x0002).wellFormed = false := by decide
theorem test_illformed_ctrlNotrun10 : (Instr.ctrlNotrun10 0x0080).wellFormed = false := by decide
theorem test_illformed_ctrlStartDebug : (Instr.ctrlStartDebug 0 0 .single 0x2000).wellFormed = false := by decide
theorem test_illformed_ctrlStartContRandom : (Instr.ctrlStartContRandom 0 0 0x0010).wellFormed = false := by decide
theorem test_illformed_ctrlStartContIncr : (Instr.ctrlStartContIncr 0 0 0x0100).wellFormed = false := by decide
theorem test_illformed_ctrlStartContPredef : (Instr.ctrlStartContPredef 0 0 0x0800).wellFormed = false := by decide
theorem test_illformed_ctrlStartSingleRandom : (Instr.ctrlStartSingleRandom 0 0 0x0080).wellFormed = false := by decide
theorem test_illformed_ctrlStartSingleIncr : (Instr.ctrlStartSingleIncr 0 0 0x0001).wellFormed = false := by decide
theorem test_illformed_ctrlStartSinglePredef : (Instr.ctrlStartSinglePredef 0 0 0x0200).wellFormed = false := by decide
theorem test_illformed_ctrlrReserved : (Instr.ctrlrReserved true false 0x0001).wellFormed = false := by decide
theorem test_illformed_ctrlrStop : (Instr.ctrlrStop 0x0003).wellFormed = false := by decide
theorem test_illformed_ctrlrNostop01 : (Instr.ctrlrNostop01 0x0080).wellFormed = false := by decide
theorem test_illformed_ctrlrNostop10 : (Instr.ctrlrNostop10 0x0002).wellFormed = false := by decide
theorem test_illformed_ctrlrNostop11 : (Instr.ctrlrNostop11 0x0083).wellFormed = false := by decide

/-! ### Words written out from 30_encoding.md R60, R61, R77 and R78 -/

/-- The instruction of a CTRL value at a control point. -/
def ofCtrl (running : Bool) (v : Word) : Option Instr := (decode running (.wrCtrl v)).toOption

-- Bit 7 alone, and bits 15:8, 6:0 around it.
theorem test_word_ctrlReserved : ofCtrl false 0b1111111111111111 = some (.ctrlReserved 0xFF7F) := by decide
theorem test_word_ctrlNotrun00 : ofCtrl false 0b0000000000000100 = some (.ctrlNotrun00 0x0004) := by decide
theorem test_word_ctrlNotrun01 : ofCtrl false 0b1000000000000001 = some (.ctrlNotrun01 0x8000) := by decide
theorem test_word_ctrlNotrun10 : ofCtrl false 0b0000000001000010 = some (.ctrlNotrun10 0x0040) := by decide
-- Section 2.2: 0xFF7F is RandomFromSet, Debug, 9600, Single, unassigned 0xD00C.
theorem test_word_ctrlStartDebug : ofCtrl false 0b1111111101111111 = some (.ctrlStartDebug 7 3 .single 0xD00C) := by
  decide
-- Section 2.2: 0x0C63 is 9000, Random, 9600, Continuous.
theorem test_word_ctrlStartContRandom : ofCtrl false 0b0000110001100011 = some (.ctrlStartContRandom 6 3 0) := by
  decide
-- P5: 0x0D03 is 64, ByteIncrement, 9600, Continuous.
theorem test_word_ctrlStartContIncr : ofCtrl false 0b0000110100000011 = some (.ctrlStartContIncr 0 3 0) := by decide
theorem test_word_ctrlStartContPredef : ofCtrl false 0b0001011000011011 = some (.ctrlStartContPredef 1 1 0x1008) := by
  decide
theorem test_word_ctrlStartSingleRandom : ofCtrl false 0b0010100000110011 = some (.ctrlStartSingleRandom 3 2 0) := by
  decide
theorem test_word_ctrlStartSingleIncr : ofCtrl false 0b0010000101000011 = some (.ctrlStartSingleIncr 4 0 0) := by
  decide
-- P7: 0x2E53 is 1518, Predefined, 9600, Single.
theorem test_word_ctrlStartSinglePredef : ofCtrl false 0b0010111001010011 = some (.ctrlStartSinglePredef 5 3 0) := by
  decide
theorem test_word_ctrlrReserved : ofCtrl true 0b0010001011110001 = some (.ctrlrReserved true false 0x2270) := by decide
theorem test_word_ctrlrStop : ofCtrl true 0b0010000000000000 = some (.ctrlrStop 0x2000) := by decide
theorem test_word_ctrlrNostop01 : ofCtrl true 0b0000000000000001 = some (.ctrlrNostop01 0) := by decide
theorem test_word_ctrlrNostop10 : ofCtrl true 0b0000000001000010 = some (.ctrlrNostop10 0x0040) := by decide
theorem test_word_ctrlrNostop11 : ofCtrl true 0b0010001000000011 = some (.ctrlrNostop11 0x2200) := by decide
-- Section 2.3: DATA 0xA5C3.
theorem test_word_wrData : (decode true (.wrData 0b1010010111000011)).toOption = some (.wrData 0xA 0x5 0xC3) := by
  decide
theorem test_encode_start : encode (.ctrlStartSinglePredef 7 0 0) = .wrCtrl 0b0010001001110011 := by decide
theorem test_encode_wrData : encode (.wrData 0x9 0xF 0x55) = .wrData 0b1001111101010101 := by decide

/-! ### Decoders (sections 2.1 to 2.3) -/

theorem test_nibble : (nibble 0xA5C3 0, nibble 0xA5C3 1, nibble 0xA5C3 2, nibble 0xA5C3 3) = (0x3, 0xC, 0x5, 0xA) := by
  decide
theorem test_byte : (byte 0x9F55 0, byte 0x9F55 1) = (0x55, 0x9F) := by decide
theorem test_decodeCtrl_1357 : (decodeCtrl Config.standard 0x1357).toOption =
    some ⟨true, true, .fixed 1518, .debug, 48, .continuous, 0x1004, false⟩ := by decide
theorem test_decodeCtrl_22F3 : resolvePlan Config.standard 0x22F3 0 = .error (.reservedBitSet 0x2273) := by rfl
theorem test_refuse_precedence :
    resolvePlan refuse 0x0004 0 = .error (.notEnabledOrStarted false false) := by rfl
theorem test_refuse_FF7F :
    resolvePlan refuse 0xFF7F 0 = .error (.unimplementedOption .unassignedCtrlBits (.bits 0xD00C)) := by rfl
theorem test_decodeData : decodeData 0xA5C3 =
    ⟨⟨0x00, 0x03, 0x19, 0xFF, 0xFF, 0xFA⟩, ⟨0x00, 0x03, 0x19, 0xFF, 0xFF, 0xF5⟩, 0xC3⟩ := by decide

/-! ### The synthesizer (section 2.4) -/

theorem test_lengthField_9000 : lengthField .bigEndian (payloadLength 9000) = [0x23, 0x16] := by decide
theorem test_lengthField_1518 : lengthField .bigEndian (payloadLength 1518) = [0x05, 0xDC] := by decide
theorem test_size_draws : (frameSize Config.standard .randomFromSet ⟨[3, 0], [], 0⟩).1 = 1518 := by decide
theorem test_supplied_bytes : DrawSource.drawBytes 2 ⟨[], [7, 8, 9], 0⟩ = ([7, 8], ⟨[], [9], 0⟩) := by decide

/-! ### Steps (section 2.5) -/

theorem test_ctrlReserved : afterEvent (·.outputs) (.wrCtrl 0x0080) State.reset =
    some [.resp (.rejected (.reservedBitSet 0x0000))] := by decide
theorem test_ctrlNotrun00 : afterEvent (·.outputs) (.wrCtrl 0x0000) State.reset =
    some [.resp (.rejected (.notEnabledOrStarted false false))] := by decide
theorem test_ctrlNotrun01 : afterEvent (·.outputs) (.wrCtrl 0x0001) State.reset =
    some [.resp (.rejected (.notEnabledOrStarted true false))] := by decide
theorem test_ctrlNotrun10 : afterEvent (·.outputs) (.wrCtrl 0x0002) State.reset =
    some [.resp (.rejected (.notEnabledOrStarted false true))] := by decide
theorem test_ctrlStartDebug : afterEvent (·.outputs) (.wrCtrl 0x0303) State.reset =
    some [.resp .accepted, .runEnd (.failed (.unimplementedOption .packetType .debug)) 0] := by decide
-- P6 with the draws 0, 1, ..., 45: the frame of a ByteIncrement start of size 64 with DATA 0.
theorem test_ctrlStartContRandom :
    afterEvent (·.outputs) (.wrCtrl 0x0003) { State.reset with rng := ⟨[], (List.range 46).map (BitVec.ofNat 8), 0⟩ } =
    some [.resp .accepted, .send ([0x00, 0x03, 0x19, 0xFF, 0xFF, 0xF0, 0x00, 0x03, 0x19, 0xFF, 0xFF, 0xF0, 0x00, 0x2E] ++
      (List.range 46).map (BitVec.ofNat 8))] := by decide
-- P5: the first frame.
theorem test_ctrlStartContIncr : afterEvent (·.outputs) (.wrCtrl 0x0D03) { State.reset with data := 0xA5C3 } =
    some [.resp .accepted, .send ([0x00, 0x03, 0x19, 0xFF, 0xFF, 0xFA, 0x00, 0x03, 0x19, 0xFF, 0xFF, 0xF5, 0x00, 0x2E] ++
      (List.range 46).map (BitVec.ofNat 8))] := by decide
-- P3: the first frame.
theorem test_ctrlStartContPredef : afterEvent (·.outputs) (.wrCtrl 0x0203) State.reset =
    some [.resp .accepted, .send ([0x00, 0x03, 0x19, 0xFF, 0xFF, 0xF0, 0x00, 0x03, 0x19, 0xFF, 0xFF, 0xF0, 0x00, 0x2E] ++
      List.replicate 46 0x00)] := by decide
-- 30_encoding.md R68: PT_MAP is a parameter.
theorem test_start_remapped_debug : afterEvent (·.outputs) (.wrCtrl 0x0003) (withConfig remapped) =
    some [.resp .accepted, .runEnd (.failed (.unimplementedOption .packetType .debug)) 0] := by decide
theorem test_start_remapped_predefined : afterEvent (·.outputs) (.wrCtrl 0x2103) (withConfig remapped) =
    some [.resp .accepted, .send ([0x00, 0x03, 0x19, 0xFF, 0xFF, 0xF0, 0x00, 0x03, 0x19, 0xFF, 0xFF, 0xF0, 0x00, 0x2E] ++
      List.replicate 46 0x00)] := by decide
theorem test_limit_zero : afterEvent (·.outputs) (.wrCtrl 0x0203) { State.reset with limit := some 0 } =
    some [.resp .accepted, .runEnd .limitReached 0] := by decide
theorem test_ctrlStartSingleRandom :
    afterEvent (·.rng) (.wrCtrl 0x2003) { State.reset with rng := ⟨[], List.replicate 47 0xAB, 0⟩ } =
    some ⟨[], [0xAB], 0⟩ := by decide
theorem test_ctrlStartSingleIncr : afterEvent (·.controlPoint) (.wrCtrl 0x2103) { State.reset with limit := some 0 } =
    some .awaitSend := by decide
-- P1: the frame and the control point.
theorem test_ctrlStartSinglePredef : afterEvent (·.outputs) (.wrCtrl 0x2203) { State.reset with data := 0x9F55 } =
    some [.resp .accepted, .send ([0x00, 0x03, 0x19, 0xFF, 0xFF, 0xF9, 0x00, 0x03, 0x19, 0xFF, 0xFF, 0xFF, 0x00, 0x2E] ++
      List.replicate 46 0x55)] := by decide
theorem test_ctrlrReserved : afterEvent (fun t => (t.outputs, t.controlPoint)) (.wrCtrl 0x0080) (pacing 2) =
    some ([.resp (.rejected (.reservedBitSet 0x0000))], .gap) := by decide
theorem test_ctrlrStop_gap : afterEvent (·.outputs) (.wrCtrl 0x0000) (pacing 2) =
    some [.resp .ack, .runEnd .stopped 2] := by decide
theorem test_ctrlrStop_inFlight :
    afterEvent (fun t => (t.outputs, t.stopReq, t.controlPoint)) (.wrCtrl 0x0000) (flying .continuous 2) =
    some ([.resp .ack], true, .awaitSend) := by decide
theorem test_ctrlrNostop01 : afterEvent (·.outputs) (.wrCtrl 0x0001) (pacing 2) = some [.resp .ack] := by decide
theorem test_ctrlrNostop01_eitherClear : afterEvent (·.outputs) (.wrCtrl 0x0001) { pacing 2 with cfg := eitherClear } =
    some [.resp .ack, .runEnd .stopped 2] := by decide
theorem test_ctrlrNostop10 : afterEvent (·.stopReq) (.wrCtrl 0x0002) { flying .continuous 0 with cfg := eitherClear } =
    some true := by decide
theorem test_ctrlrNostop11 : afterEvent (fun t => (t.outputs, t.plan)) (.wrCtrl 0x2203) (pacing 2) =
    some ([.resp .ack], some (plan .byteIncrement .continuous)) := by decide
theorem test_wrData : afterEvent (fun t => (t.outputs, t.data, t.plan)) (.wrData 0xFFFF) (pacing 2) =
    some ([.resp .ack], 0xFFFF, some (plan .byteIncrement .continuous)) := by decide
theorem test_setLimit : afterEvent (fun t => (t.outputs, t.limit)) (.setLimit (some 5)) State.reset =
    some ([.resp .ack], some 5) := by decide
theorem test_cancel_inFlight : afterEvent (fun t => (t.outputs, t.cancelReq)) .cancel (flying .continuous 2) =
    some ([.resp .ack], true) := by decide
theorem test_cancel_gap : afterEvent (·.outputs) .cancel (pacing 1) = some [.resp .ack, .runEnd .cancelled 1] := by decide
theorem test_sendDoneOk_limit :
    afterEvent (·.outputs) .sendDoneOk { flying .continuous 2 with runLimit := some 3 } =
    some [.runEnd .limitReached 3] := by decide
theorem test_sendDoneOk_precedence :
    afterEvent (·.outputs) .sendDoneOk { flying .continuous 0 with cancelReq := true, stopReq := true } =
    some [.runEnd .cancelled 1] := by decide
theorem test_sendDoneErr :
    afterEvent (·.outputs) (.sendDoneErr "linkdown") { flying .continuous 2 with stopReq := true } =
    some [.runEnd (.failed (.transportError "linkdown")) 2] := by decide
theorem test_gapElapsed : afterEvent (fun t => (t.outputs.length, t.controlPoint, t.count)) .gapElapsed (pacing 1) =
    some (1, .awaitSend, 1) := by decide
-- R151: no such move (log 10).
theorem test_gapElapsed_notAdmitted : refusedBy .gapElapsedNotAdmitted (exec .gapElapsed (flying .single 0)) = true := by
  decide
theorem test_sendDoneOk_notAdmitted : refusedBy .sendDoneNotAdmitted (exec .sendDoneOk (pacing 0)) = true := by decide

/-! ### Literals and scripts (section 2.6, 30_encoding.md section 6) -/

/-- The value, and of a literal's error its radix. -/
def literal (s : String) : Except Nat Word :=
  match parseLiteral s with
  | .ok v => .ok v
  | .error (.literalParseError _ r) => .error r
  | .error _ => .error 0

theorem test_literal_separators : literal "0b0010_0010_0111_0011" = .ok 0x2273 := by rfl
theorem test_literal_octal : literal "0o21163" = .ok 0x2273 := by rfl
theorem test_literal_apostrophe : literal "1'000" = .ok 0x03E8 := by rfl
theorem test_literal_too_large : literal "0x1_0000" = .error 16 := by rfl
theorem test_literal_prefix_case : literal "0X12" = .error 10 := by rfl
theorem test_literal_empty : literal "0x" = .error 16 := by rfl
-- R81: the host's RUN with its DATA operand absent.
theorem test_script_run : parseLine "RUN 0x0203 ; P3" = .ok (.runCtrl 0x0203) := by rfl
theorem test_script_sendErr : parseLine "SENDERR linkdown" = .ok (.sendErr "linkdown") := by rfl
theorem test_script_assemble : assemble ["SETLIMIT 2", "RUN 0x0173, 0x3300", "SENDOK", "STOP"] =
    .ok [.setLimit (some 2), .wrData 0x3300, .wrCtrl 0x0173, .sendDoneOk, .wrCtrl 0x0000] := by rfl

/-! ### Witnesses: the hypotheses of the statements, met together; one theorem per clause that has its own -/

theorem witness_DecodeOfEncodeIsTheInstruction :
    (Instr.ctrlStartDebug 7 3 .single 0xD00C).wellFormed = true ∧
    (Instr.ctrlStartDebug 7 3 .single 0xD00C).decodedAt false = true := by decide
theorem witness_DecodeOfEncodeIsTheInstruction_running :
    (Instr.ctrlrReserved true true 0xFF7C).wellFormed = true ∧
    (Instr.ctrlrReserved true true 0xFF7C).decodedAt true = true := by decide
theorem witness_EncodeOfDecodeIsTheEvent :
    decode false (.wrCtrl 0xFFFF) = .ok (.ctrlReserved 0xFF7F) ∧
    decode true (.wrCtrl 0x0080) = .ok (.ctrlrReserved false false 0) := ⟨rfl, rfl⟩
theorem witness_StepRunsTheDecodedInstruction :
    ({ State.reset with inbox := [.event (.wrCtrl 0x0203), .reset] } : State).inbox =
      .event (.wrCtrl 0x0203) :: [.reset] ∧
    decode State.reset.fsm.isRunning (.wrCtrl 0x0203) = .ok (.ctrlStartContPredef 0 0 0) := ⟨rfl, rfl⟩
theorem witness_AStepWithNothingToTakeHolds : (pacing 1).inbox = [] := rfl
theorem witness_ResetEventSetsEveryResetValue :
    ({ flying .continuous 3 with inbox := [.reset], stopReq := true } : State).inbox = .reset :: [] := rfl
theorem witness_CtrlDecodingReadsTheStatedFields :
    (0x0080 : Word).toNat / 128 % 2 = 1 ∧
    ((0x0063 : Word).toNat / 128 % 2 = 0 ∧ (0x0063 : Word).toNat / 16 % 8 < 7) ∧
    ((0xFF7F : Word).toNat / 128 % 2 = 0 ∧ (0xFF7F : Word).toNat / 16 % 8 = 7) := by decide
theorem witness_PlanResolutionFollowsTheStatedPrecedence :
    (0x0080 : Word).toNat / 128 % 2 = 1 ∧
    ((0xFF7E : Word).toNat / 128 % 2 = 0 ∧ (0xFF7E : Word).toNat % 4 ≠ 3) ∧
    ((0x0007 : Word).toNat / 128 % 2 = 0 ∧ (0x0007 : Word).toNat % 4 = 3 ∧ refuse.unassignedPolicy = .refuse ∧
      (0x0007 : Word) &&& 0xD00C ≠ 0) ∧
    ((0x0003 : Word).toNat / 128 % 2 = 0 ∧ (0x0003 : Word).toNat % 4 = 3 ∧
      (refuse.unassignedPolicy = .ignore ∨ (0x0003 : Word) &&& 0xD00C = 0)) := by decide
theorem witness_SynthesizedFramesHoldTheStatedBytes :
    (plan .predefined .single).ptype ≠ .debug ∧
    ¬((plan .predefined .single).debugSub = true ∧ (plan .predefined .single).mode = .single) ∧
    nextSize Config.standard (plan .predefined .single).size DrawSource.none 64 DrawSource.none ∧
    13 < 64 - 18 := ⟨by decide, by decide, ⟨rfl, rfl⟩, by decide⟩
theorem witness_SynthesizedFramesHoldTheStatedBytes_random :
    (plan .random .continuous).ptype = .random ∧ (plan .random .continuous).ptype ≠ .debug ∧
    nextSize Config.standard .randomFromSet ⟨[3], [1], 0⟩ 1518 ⟨[], [1], 0⟩ :=
  ⟨rfl, by decide, .inl ⟨3, [], rfl, rfl, rfl⟩⟩
theorem witness_nextSize_free :
    nextSize Config.standard .randomFromSet DrawSource.none
      (Config.standard.randomSizeOrder.get (Config.freeSizeDraw 0)) ⟨[], [], 1⟩ := .inr ⟨rfl, rfl, rfl⟩
theorem witness_PatternPayloadsHoldTheStatedOctets :
    (∃ f, synthesize Config.standard (plan .byteIncrement .single) DrawSource.none = (.ok f, DrawSource.none) ∧
      14 + 45 < f.length) ∧
    (∃ f, synthesize Config.standard (plan .predefined .single) DrawSource.none = (.ok f, DrawSource.none) ∧
      14 + 45 < f.length) := ⟨⟨_, rfl, by decide⟩, ⟨_, rfl, by decide⟩⟩
theorem witness_UnimplementedPlansFailAfterTheSizeDraw :
    nextSize Config.standard (plan .debug .single).size DrawSource.none 64 DrawSource.none ∧
    (plan .debug .single).ptype = .debug ∧
    (({ plan .random .single with debugSub := true } : Plan).ptype ≠ .debug ∧
      ({ plan .random .single with debugSub := true } : Plan).debugSub = true ∧
      ({ plan .random .single with debugSub := true } : Plan).mode = .single) := ⟨⟨rfl, rfl⟩, by decide, by decide⟩
theorem witness_SynthesisWithoutRandomnessIsDeterministic :
    (plan .predefined .single).size = .fixed 64 ∧
    ((plan .predefined .single).ptype = .byteIncrement ∨ (plan .predefined .single).ptype = .predefined) := by decide
theorem witness_LengthFieldHoldsThePayloadLength : 64 ∈ sizeTable ∧ 9000 ∈ sizeTable := by decide
theorem witness_ReservedBitWritesAreRejectedInEveryState :
    (Instr.ctrlReserved 0xFF7F).wellFormed = true ∧ (Instr.ctrlrReserved true true 0xFF7C).wellFormed = true := by
  decide
theorem witness_WritesWithoutBothBitsAreRejectedOnlyInIdle :
    State.reset.fsm = .idle ∧ within notrunOther 0xFF7C = true := by decide
theorem witness_WritesWithoutBothBitsAreRejectedOnlyInIdle_running :
    (flying .single 0).fsm = .running .awaitSend (plan .byteIncrement .single) ∧
    ∃ t, exec (.ctrlrNostop01 0) (flying .single 0) = .next t := ⟨rfl, _, rfl⟩

/-- The hypotheses that all start statements share, at the largest operands. -/
theorem witness_starts :
    State.reset.fsm = .idle ∧ within unassignedMask 0xD00C = true ∧
    (State.reset.cfg.unassignedPolicy = .ignore ∨ (0xD00C : Word) = 0) ∧
    nextSize State.reset.cfg (tableSize 6) State.reset.rng 9000 State.reset.rng ∧
    nextSize State.reset.cfg (tableSize 0) State.reset.rng 64 State.reset.rng :=
  ⟨rfl, by decide, by decide, ⟨rfl, rfl⟩, ⟨rfl, rfl⟩⟩
theorem witness_starts_refuse :
    (withConfig refuse).fsm = .idle ∧ within unassignedMask 0 = true ∧
    ((withConfig refuse).cfg.unassignedPolicy = .ignore ∨ (0 : Word) = 0) := by decide
theorem witness_starts_randomSize :
    nextSize State.reset.cfg (tableSize 7) ⟨[0], [], 0⟩ 64 ⟨[], [], 0⟩ := .inl ⟨0, [], rfl, rfl, rfl⟩
theorem witness_IncrementAndPredefinedStartsEmitTheirFrame :
    (∃ w ∈ startRows 6 3 0xD00C, w.instr = .ctrlStartContIncr 6 3 0xD00C ∧ w.mode = .continuous ∧
      State.reset.limit ≠ some 0 ∧ State.reset.cfg.ptMap.get w.code = .byteIncrement) ∧
    (∃ w ∈ startRows 0 0 0, w.instr = .ctrlStartSinglePredef 0 0 0 ∧ w.mode = .single ∧
      w.value ∉ State.reset.cfg.debugSubmode ∧ State.reset.cfg.ptMap.get w.code = .predefined) :=
  ⟨⟨_, .tail _ (.head _), rfl, rfl, by decide, rfl⟩,
    ⟨_, .tail _ (.tail _ (.tail _ (.tail _ (.tail _ (.tail _ (.head _)))))), rfl, rfl, by decide, rfl⟩⟩
theorem witness_IncrementAndPredefinedStartsEmitTheirFrame_remapped :
    (∃ w ∈ startRows 0 0 0, w.instr = .ctrlStartContPredef 0 0 0 ∧ remapped.ptMap.get w.code = .byteIncrement) ∧
    (∃ w ∈ startRows 0 0 0, w.instr = .ctrlStartContIncr 0 0 0 ∧ remapped.ptMap.get w.code = .predefined) :=
  ⟨⟨_, .tail _ (.tail _ (.head _)), rfl, rfl⟩, ⟨_, .tail _ (.head _), rfl, rfl⟩⟩
theorem witness_RandomStartsEmitTheDrawnBytes :
    (∃ w ∈ startRows 0 0 0, w.instr = .ctrlStartContRandom 0 0 0 ∧ w.mode = .continuous ∧
      State.reset.limit ≠ some 0 ∧ State.reset.cfg.ptMap.get w.code = .random) ∧
    (∃ w ∈ startRows 0 0 0, w.instr = .ctrlStartDebug 0 0 .single 0 ∧ w.mode = .single ∧
      w.value ∉ (withConfig remapped).cfg.debugSubmode ∧ (withConfig remapped).cfg.ptMap.get w.code = .random) :=
  ⟨⟨_, .head _, rfl, rfl, by decide, rfl⟩,
    ⟨_, .tail _ (.tail _ (.tail _ (.tail _ (.tail _ (.tail _ (.tail _ (.head _))))))), rfl, rfl, by decide, rfl⟩⟩
theorem witness_DebugStartsFailBeforeAnyFrame :
    (∃ w ∈ startRows 0 0 0, w.instr = .ctrlStartDebug 0 0 .continuous 0 ∧ w.mode = .continuous ∧
      State.reset.limit ≠ some 0 ∧ State.reset.cfg.ptMap.get w.code = .debug) ∧
    (∃ w ∈ startRows 0 0 0, w.instr = .ctrlStartSingleRandom 0 0 0 ∧ w.mode = .single ∧
      (withConfig remapped).cfg.ptMap.get w.code = .debug) :=
  ⟨⟨_, .tail _ (.tail _ (.tail _ (.head _))), rfl, rfl, by decide, rfl⟩,
    ⟨_, .tail _ (.tail _ (.tail _ (.tail _ (.head _)))), rfl, rfl, rfl⟩⟩
theorem witness_LimitZeroEndsAContinuousStartAtOnce :
    ({ State.reset with limit := some 0 } : State).fsm = .idle ∧ within unassignedMask 0xD00C = true ∧
    (({ State.reset with limit := some 0 } : State).cfg.unassignedPolicy = .ignore ∨ (0xD00C : Word) = 0) ∧
    ({ State.reset with limit := some 0 } : State).limit = some 0 := by decide
theorem witness_RefusePolicyRejectsUnassignedBits :
    (withConfig refuse).fsm = .idle ∧ within unassignedMask 0x0004 = true ∧
    (withConfig refuse).cfg.unassignedPolicy = .refuse ∧ (0x0004 : Word) ≠ 0 ∧
    ∃ a : Response, a = .rejected (.unimplementedOption .unassignedCtrlBits (.bits 0x0004)) :=
  ⟨rfl, by decide, rfl, by decide, _, rfl⟩
theorem witness_DebugSubmodeStartsFailBeforeAnyFrame :
    (withConfig submode).fsm = .idle ∧ within unassignedMask 0 = true ∧
    (withConfig submode).cfg.unassignedPolicy = .ignore ∧
    nextSize (withConfig submode).cfg (tableSize 0) (withConfig submode).rng 64 (withConfig submode).rng ∧
    ∃ w ∈ startRows 0 0 0, w.instr = .ctrlStartSingleIncr 0 0 0 ∧ w.mode = .single ∧
      w.value ∈ (withConfig submode).cfg.debugSubmode ∧ (withConfig submode).cfg.ptMap.get w.code ≠ .debug :=
  ⟨rfl, by decide, rfl, ⟨rfl, rfl⟩,
    _, .tail _ (.tail _ (.tail _ (.tail _ (.tail _ (.head _))))), rfl, rfl, by decide, by decide⟩
theorem witness_StopValuesStopAContinuousRun :
    (plan .byteIncrement .continuous).mode = .continuous ∧ within notrunOther 0xFF7C = true ∧
    (pacing 2).fsm = .running .gap (plan .byteIncrement .continuous) ∧
    (flying .continuous 2).fsm = .running .awaitSend (plan .byteIncrement .continuous) ∧
    ({ pacing 2 with cfg := eitherClear } : State).cfg.stopRule = .eitherClear := by decide
theorem witness_OtherValuesInRunningAreOnlyAcknowledged :
    ({ pacing 2 with cfg := eitherClear } : State).fsm = .running .gap (plan .byteIncrement .continuous) ∧
    within notrunOther 0 = true ∧
    ((plan .byteIncrement .continuous).mode = .single ∨ (pacing 2).cfg.stopRule = .bothClear) ∧
    (flying .single 0).fsm = .running .awaitSend (plan .byteIncrement .single) ∧
    (plan .byteIncrement .single).mode = .single := by decide
theorem witness_CancelActsByControlPoint :
    State.reset.fsm = .idle ∧
    ((flying .continuous 2).fsm = .running .awaitSend (plan .byteIncrement .continuous) ∧
      (plan .byteIncrement .continuous).mode = .continuous) ∧
    ((flying .single 0).fsm = .running .awaitSend (plan .byteIncrement .single) ∧
      (plan .byteIncrement .single).mode = .single) ∧
    (pacing 1).fsm = .running .gap (plan .byteIncrement .continuous) := by decide
theorem witness_SendDoneOkCountsThenEndsOrPaces :
    (flying .continuous 2).fsm = .running .awaitSend (plan .byteIncrement .continuous) ∧
    ((flying .continuous 2).cfg.countWidth = none → 3 = (flying .continuous 2).count + 1) ∧
    (∀ w, (flying .continuous 2).cfg.countWidth = some w → 3 = ((flying .continuous 2).count + 1) % 2 ^ w) ∧
    (flying .continuous 2).cancelReq = false ∧ (flying .continuous 2).stopReq = false ∧
    (∀ m, (flying .continuous 2).runLimit = some m → 3 < m) :=
  ⟨rfl, fun _ => rfl, (fun w h => by cases h), rfl, rfl, (fun m h => by cases h)⟩
theorem witness_SendDoneOkCountsThenEndsOrPaces_width :
    (narrow.cfg.countWidth = none → 0 = narrow.count + 1) ∧
    (∀ w, narrow.cfg.countWidth = some w → 0 = (narrow.count + 1) % 2 ^ w) := by
  refine ⟨fun h => (by cases h), fun w h => ?_⟩
  cases h
  decide
theorem witness_SendDoneOkCountsThenEndsOrPaces_limit :
    (∃ m, ({ flying .continuous 2 with runLimit := some 3 } : State).runLimit = some m ∧ m ≤ 3) ∧
    (∀ m, ({ flying .continuous 2 with runLimit := some 4 } : State).runLimit = some m → 3 < m) := by
  refine ⟨⟨3, rfl, by decide⟩, fun m h => ?_⟩
  cases h
  decide
theorem witness_SendDoneOkCountsThenEndsOrPaces_requests :
    ({ flying .continuous 2 with cancelReq := true } : State).cancelReq = true ∧
    (({ flying .continuous 2 with stopReq := true } : State).cancelReq = false ∧
      ({ flying .continuous 2 with stopReq := true } : State).stopReq = true) ∧
    (plan .byteIncrement .single).mode = .single := by decide
theorem witness_AGivenCountWidthWraps :
    narrow.fsm = .running .awaitSend (plan .byteIncrement .single) ∧ narrow.cfg.countWidth = some 8 := by decide
theorem witness_SendDoneErrAbortsTheRun :
    (flying .continuous 4).fsm = .running .awaitSend (plan .byteIncrement .continuous) := by decide
theorem witness_GapElapsedChecksThenEmitsTheNextFrame :
    (pacing 1).fsm = .running .gap (plan .byteIncrement .continuous) ∧
    (plan .byteIncrement .continuous).mode = .continuous ∧
    (pacing 1).cancelReq = false ∧ (pacing 1).stopReq = false ∧
    (∀ m, ({ pacing 1 with runLimit := some 2 } : State).runLimit = some m → (pacing 1).count < m) ∧
    (plan .byteIncrement .continuous).ptype ≠ .debug ∧
    nextSize (pacing 1).cfg (plan .byteIncrement .continuous).size (pacing 1).rng 64 (pacing 1).rng :=
  ⟨rfl, rfl, rfl, rfl, fun m h => by cases h; decide, by decide, ⟨rfl, rfl⟩⟩
theorem witness_GapElapsedChecksThenEmitsTheNextFrame_stops :
    ({ pacing 1 with cancelReq := true } : State).cancelReq = true ∧
    ({ pacing 1 with stopReq := true } : State).stopReq = true ∧
    (∃ m, ({ pacing 1 with runLimit := some 1 } : State).runLimit = some m ∧ m ≤ (pacing 1).count) :=
  ⟨rfl, rfl, 1, rfl, by decide⟩
theorem witness_AdmissionIsTheStatedTable :
    admits (pacing 1).controlPoint .sendDoneOk = false ∧ admits (flying .single 0).controlPoint .gapElapsed = false := by
  decide

/-- A run in flight, as the whole-machine statements meet it: after reset and its start, with the invariants. -/
def started : State := { State.reset with
  fsm := .running .awaitSend (plan .byteIncrement .continuous)
  outputs := [.resp .accepted, .send (headerBytes .bigEndian 0x9 0xF 46 ++ incrementBytes 46)] }

theorem witness_EveryStepKeepsTheInvariant : started.Inv ∧ ∃ t, step { started with inbox := [.event .sendDoneOk] } = .next t :=
  ⟨{ cfgOk := by decide
     planOk := by
       intro ph p h
       cases h
       exact ⟨.inr ⟨64, by decide, rfl⟩, by decide, ⟨_, rfl⟩, ⟨_, rfl⟩, by decide, by decide⟩
     gapOk := by intro p h; cases h
     singleOk := by intro ph p _ _; exact ⟨rfl, rfl⟩
     limitOk := by intro ph p n _ _ h; cases h
     framesOk := by
       intro f h
       have hf : f = headerBytes .bigEndian 0x9 0xF 46 ++ incrementBytes 46 := by simpa [started] using h
       exact ⟨64, by decide, 0x9, 0xF, incrementBytes 46, by decide, hf⟩
     gapsOk := by intro b h; simp [started] at h }, _, rfl⟩
theorem witness_EveryStepKeepsTheConversation :
    started.Conversing ∧ started.inbox.head? ≠ some .reset ∧ (∃ t, exec .sendDoneOk started = .next t) ∧
    ∃ t, step { started with inbox := [.reset] } = .next t := ⟨rfl, by decide, ⟨_, rfl⟩, _, rfl⟩
theorem witness_OutputsOfAStepHaveTheStatedShape :
    (∃ t, exec .cancel (pacing 1) = .next t) ∧ fromHost .cancel = true ∧
    (∃ t, exec .gapElapsed (pacing 1) = .next t) ∧ fromHost .gapElapsed = false ∧
    (∃ t, step (pacing 1) = .next t) := ⟨⟨_, rfl⟩, rfl, ⟨_, rfl⟩, rfl, ⟨_, rfl⟩⟩
theorem witness_ARunKeepsItsPlanAndLimit :
    ∃ t, step { pacing 1 with inbox := [.event (.setLimit (some 9))] } = .next t ∧
      (pacing 1).fsm = .running .gap (plan .byteIncrement .continuous) ∧
      t.fsm = .running .gap (plan .byteIncrement .continuous) := ⟨_, rfl, rfl, rfl⟩
theorem witness_NoInstructionReadsTheCtrlRegister :
    (∃ t, exec .cancel (pacing 1) = .next t) ∧ ∃ q, exec .sendDoneOk (pacing 1) = .refused q := ⟨⟨_, rfl⟩, _, rfl⟩
theorem witness_OnlyAStartReadsTheDataRegister :
    ∃ t, exec (.ctrlNotrun00 0) State.reset = .next t ∧
      ∀ o, t.outputs ≠ State.reset.outputs ++ [.resp .accepted, o] :=
  ⟨_, rfl, fun o h => by injection h with h1 h2; cases h2⟩
theorem witness_NoInstructionReadsOutputsOrInputsToCome :
    (∃ t, exec .cancel (pacing 1) = .next t) ∧ ∃ q, exec .sendDoneOk (pacing 1) = .refused q := ⟨⟨_, rfl⟩, _, rfl⟩
theorem witness_ASingleRunIgnoresCancelStopAndLimit :
    (flying .single 0).fsm = .running .awaitSend (plan .byteIncrement .single) ∧
    (plan .byteIncrement .single).mode = .single ∧ fromHost (.ctrlrStop 0) = true := by decide
theorem witness_AFailedRunKeepsTheRegisters :
    ∃ t, exec (.ctrlStartDebug 0 0 .single 0) State.reset = .next t ∧
      t.outputs = State.reset.outputs ++ [.resp .accepted] ++
        [.runEnd (.failed (.unimplementedOption .packetType .debug)) 0] := ⟨_, rfl, rfl⟩
theorem witness_NoStepChangesAParameter : ∃ t, step { pacing 1 with inbox := [.reset] } = .next t := ⟨_, rfl⟩
theorem witness_ASeparatorDoesNotChangeALiteral :
    ('_' = '_' ∨ '_'.toNat = 39) ∧ ((Char.ofNat 39) = '_' ∨ (Char.ofNat 39).toNat = 39) := by decide
theorem witness_LiteralsDenoteTheirNumber :
    ([(15, true), (15, false), (15, true), (15, false)] : List (Nat × Bool)) ≠ [] ∧
    (∀ d ∈ ([(15, true), (15, false), (15, true), (15, false)] : List (Nat × Bool)), d.1 < 16) ∧
    ([(15, true), (15, false), (15, true), (15, false)] : List (Nat × Bool)).foldl (fun a d => a * 16 + d.1) 0 =
      0xFFFF := by decide
theorem witness_LiteralErrorsNameTheTextAndRadix :
    (∃ e, parseLiteralChars ['0', '_', 'x'] = .error e) ∧ (∃ e, parseLiteralChars ['0', 'o', '8'] = .error e) ∧
    (∃ e, parseLiteralChars ['0', 'b', '2'] = .error e) ∧ (∃ e, parseLiteralChars ['6', '5', '5', '3', '6'] = .error e) ∧
    ∀ ds : List Char, ['6', '5', '5', '3', '6'] ≠ '0' :: 'x' :: ds ∧ ['6', '5', '5', '3', '6'] ≠ '0' :: 'o' :: ds ∧
      ['6', '5', '5', '3', '6'] ≠ '0' :: 'b' :: ds :=
  ⟨⟨_, rfl⟩, ⟨_, rfl⟩, ⟨_, rfl⟩, ⟨_, rfl⟩, fun ds => by simp⟩
theorem witness_LiteralsWithoutDigitsOrWithAForeignCharacterFail :
    ['0', '_', 'x'].filter (fun c => c ≠ '_' && c.toNat ≠ 39) = ['0', 'x'] ++ [] ∧
    ['0', 'b', '1', '2'].filter (fun c => c ≠ '_' && c.toNat ≠ 39) = ['0', 'b'] ++ ['1', '2'] ∧
    ∃ c ∈ ['1', '2'], ∀ d < 2, c ≠ digitChar d true ∧ c ≠ digitChar d false :=
  ⟨by decide, by decide, '2', by decide, fun d _ => by interval_cases d <;> decide⟩
theorem witness_LiteralsWithoutDigitsOrWithAForeignCharacterFail_decimal :
    (∀ ds : List Char, ['0', 'X'] ≠ '0' :: 'x' :: ds ∧ ['0', 'X'] ≠ '0' :: 'o' :: ds ∧ ['0', 'X'] ≠ '0' :: 'b' :: ds) ∧
    ['0', 'X'].filter (fun c => c ≠ '_' && c.toNat ≠ 39) = [] ++ ['0', 'X'] ∧
    ∃ c ∈ ['0', 'X'], ∀ d < 10, c ≠ digitChar d true ∧ c ≠ digitChar d false :=
  ⟨fun ds => by simp, by decide, 'X', by decide, fun d _ => by interval_cases d <;> decide⟩

end Sys2Proof.Tests
end

section
/-! The register decoder's functions (40_register_decoder.md R100, R101, R105, R107): the fields of a value as slices
of its number, the addresses built from a nibble, and the size policy of a code. -/

namespace Sys2Proof.Machine

/-! ### Accessors -/

theorem nibble_toNat (v : Word) (i : Fin 4) : (nibble v i).toNat = v.toNat / 2 ^ (4 * i.val) % 16 :=
  bitField_toNat v (4 * i.val) 4

theorem byte_toNat (v : Word) (j : Fin 2) : (byte v j).toNat = v.toNat / 2 ^ (8 * j.val) % 256 :=
  bitField_toNat v (8 * j.val) 8

/-! ### Addresses -/

/-- The high nibble 0xF and the low nibble share no bit, so their disjunction is a sum (30_encoding.md R74). -/
theorem macOctet_eq_add : ∀ low : BitVec 4, (0xF0 ||| low.setWidth 8 : Byte) = BitVec.ofNat 8 (240 + low.toNat) := by
  decide

theorem macOf_eq (low : BitVec 4) :
    macOf low = ⟨0x00, 0x03, 0x19, 0xFF, 0xFF, BitVec.ofNat 8 (240 + low.toNat)⟩ := by
  rw [macOf, macOctet_eq_add]

/-- The low nibble of the final octet is the nibble the address was built from. -/
theorem macOf_o6_setWidth : ∀ low : BitVec 4, (macOf low).o6.setWidth 4 = low := by decide

theorem macOf_injective : Function.Injective macOf :=
  Function.LeftInverse.injective (g := fun m : Mac => m.o6.setWidth 4) macOf_o6_setWidth

/-- R107's corner case: equal addresses come from equal nibbles and from nothing else. -/
theorem decodeData_dst_eq_src_iff (v : Word) : (decodeData v).dst = (decodeData v).src ↔ nibble v 3 = nibble v 2 :=
  macOf_injective.eq_iff

/-! ### Size policies -/

theorem sizePolicy_eq_fixed {c : BitVec 3} {l : Nat} (h : sizeTable[c.toNat]? = some l) :
    sizePolicy c = .fixed l := by
  simp only [sizePolicy, h]

theorem sizePolicy_eq_randomFromSet {c : BitVec 3} (h : sizeTable[c.toNat]? = none) :
    sizePolicy c = .randomFromSet := by
  simp only [sizePolicy, h]

/-! ### The statements -/

/-- Settles O12: each address is built from its nibble and the fill byte is byte 0, each a slice of the value's number;
the final octet determines its nibble. -/
theorem dataDecodingGivesTheStatedAddresses : Obligations.DataDecodingGivesTheStatedAddresses := by
  intro v
  have hdst : (nibble v 3).toNat = v.toNat / 4096 % 16 := nibble_toNat v 3
  have hsrc : (nibble v 2).toNat = v.toNat / 256 % 16 := nibble_toNat v 2
  have hfill : byte v 0 = BitVec.ofNat 8 (v.toNat % 256) := by
    apply BitVec.eq_of_toNat_eq
    simp [byte_toNat]
  constructor
  · rw [decodeData, macOf_eq, macOf_eq, hdst, hsrc, hfill]
  · rw [decodeData_dst_eq_src_iff, ← BitVec.toNat_inj, hdst, hsrc]

/-- Settles O10: the codes 0 to 6 are the places of SIZE_TABLE, and code 7 is the one past its end. -/
theorem sizeCodesSelectTheStatedPolicies : Obligations.SizeCodesSelectTheStatedPolicies :=
  ⟨sizePolicy_eq_fixed rfl, sizePolicy_eq_fixed rfl, sizePolicy_eq_fixed rfl, sizePolicy_eq_fixed rfl,
    sizePolicy_eq_fixed rfl, sizePolicy_eq_fixed rfl, sizePolicy_eq_fixed rfl, sizePolicy_eq_randomFromSet rfl, rfl⟩

end Sys2Proof.Machine
end

section
/-! The frame synthesizer's functions (41_frame_synthesizer.md R131 to R137, R141): the payload of each pattern policy,
where the payload stands in a frame, and which plans leave the draws as they are. -/

namespace Sys2Proof.Machine

/-! ### The parts of a frame -/

@[simp] theorem frameSize_fixed (cfg : Config) (l : Nat) (r : DrawSource) : frameSize cfg (.fixed l) r = (l, r) := rfl

@[simp] theorem header_length (cfg : Config) (p : Plan) (n : Nat) : (header cfg p n).length = 14 := by
  cases h : cfg.lengthByteOrder <;> simp [header, h, lengthField, Mac.toList]

theorem payload_byteIncrement {p : Plan} (h : p.ptype = .byteIncrement) (n : Nat) (r : DrawSource) :
    payload p n r = ((List.range n).map (BitVec.ofNat 8), r) := by
  simp only [payload, h]

theorem payload_predefined {p : Plan} (h : p.ptype = .predefined) (n : Nat) (r : DrawSource) :
    payload p n r = (List.replicate n p.fill, r) := by
  simp only [payload, h]

/-- A byte holds a number modulo 256. -/
theorem byte_ofNat_mod (i : Nat) : (BitVec.ofNat 8 (i % 256) : Byte) = BitVec.ofNat 8 i := by
  apply BitVec.eq_of_toNat_eq
  simp

/-! ### Payload octets at their offsets -/

theorem payload_byteIncrement_getElem? {p : Plan} (h : p.ptype = .byteIncrement) {n i : Nat} (hi : i < n)
    (r : DrawSource) : (payload p n r).1[i]? = some (BitVec.ofNat 8 (i % 256)) := by
  simp [payload_byteIncrement h, hi, byte_ofNat_mod]

theorem payload_predefined_getElem? {p : Plan} (h : p.ptype = .predefined) {n i : Nat} (hi : i < n)
    (r : DrawSource) : (payload p n r).1[i]? = some p.fill := by
  simp [payload_predefined h, hi]

/-- A synthesized frame is 14 octets and then the payload of some length, from some draws (R133). -/
theorem synthesize_ok_payload {cfg : Config} {p : Plan} {r g : DrawSource} {f : Frame}
    (h : synthesize cfg p r = (.ok f, g)) :
    ∃ n r₁, f.length = 14 + n ∧ ∀ i, f[14 + i]? = (payload p n r₁).1[i]? := by
  obtain ⟨hdebug, rfl, -⟩ := synthesize_ok h
  obtain ⟨hptype, -⟩ := debugError_eq_none_iff.mp hdebug
  refine ⟨payloadLength (frameSize cfg p.size r).1, (frameSize cfg p.size r).2, ?_, fun i => ?_⟩
  · rw [List.length_append, header_length, payload_length hptype]
  · rw [List.getElem?_append_right (by simp), header_length, Nat.add_sub_cancel_left]

/-! ### Plans that take no draw -/

/-- The pattern policies hold octets that do not depend on the draws, and take none (R136, R137). -/
theorem payload_pattern_takes_no_draw {p : Plan} (h : p.ptype = .byteIncrement ∨ p.ptype = .predefined) (n : Nat) :
    ∃ body, ∀ r, payload p n r = (body, r) := by
  rcases h with hincr | hpredef
  · exact ⟨_, payload_byteIncrement hincr n⟩
  · exact ⟨_, payload_predefined hpredef n⟩

/-- One result, failure or frame, serves every randomness input, and that input is handed on untouched (R141). -/
theorem synthesize_fixed_pattern_takes_no_draw (cfg : Config) {p : Plan} {l : Nat} (hsize : p.size = .fixed l)
    (hptype : p.ptype = .byteIncrement ∨ p.ptype = .predefined) :
    ∃ result, ∀ r, synthesize cfg p r = (result, r) := by
  obtain ⟨body, hbody⟩ := payload_pattern_takes_no_draw hptype (payloadLength l)
  cases hdebug : debugError p with
  | some e => exact ⟨.error e, fun r => by simp [synthesize, hdebug, hsize]⟩
  | none =>
    exact ⟨.ok (header cfg p (payloadLength l) ++ body), fun r => by simp [synthesize, hdebug, hsize, hbody]⟩

/-! ### The statements -/

/-- Settles O16: an octet of the frame past the header is the payload's octet at that offset, which each pattern policy
gives. -/
theorem patternPayloadsHoldTheStatedOctets : Obligations.PatternPayloadsHoldTheStatedOctets := by
  intro cfg p r g f i hsyn hlt
  obtain ⟨n, r₁, hlen, hoctet⟩ := synthesize_ok_payload hsyn
  have hi : i < n := by omega
  rw [hoctet i]
  exact ⟨fun h => payload_byteIncrement_getElem? h hi r₁, fun h => payload_predefined_getElem? h hi r₁⟩

/-- Settles O18: one result serves both randomness inputs, and each is handed on untouched. -/
theorem synthesisWithoutRandomnessIsDeterministic : Obligations.SynthesisWithoutRandomnessIsDeterministic := by
  intro cfg p l r r' hsize hptype
  obtain ⟨result, hresult⟩ := synthesize_fixed_pattern_takes_no_draw cfg hsize hptype
  rw [hresult r, hresult r']
  exact ⟨rfl, rfl⟩

end Sys2Proof.Machine
end

section
/-! The decode classes of WRCTRL (30_encoding.md R77, R78), and that decoding and encoding undo each other. A class
test reads the six bits 13, 9, 8, 7, 1 and 0 only, so what holds of the 64 ways to set them holds of every value; that
exactly one row matches makes the order of the rows immaterial. -/

namespace Sys2Proof

open Machine

/-! ### Exactly one row matches -/

/-- The bits that some row of R77 or R78 tests. -/
def classMask : Word := 0x2383

/-- The value with the bits `hi` at 13, `mid` at 9:7 and `lo` at 1:0, and no other. -/
def classWord (hi : BitVec 1) (mid : BitVec 3) (lo : BitVec 2) : Word :=
  hi.setWidth 16 <<< 13 ||| mid.setWidth 16 <<< 7 ||| lo.setWidth 16

/-- The rows that match a value. -/
def matchingRows (rows : List CtrlRow) (v : Word) : List CtrlRow := rows.filter (fun r => v &&& r.mask = r.pattern)

theorem and_classMask_eq (v : Word) :
    v &&& classMask = classWord (v.extractLsb' 13 1) (v.extractLsb' 7 3) (v.extractLsb' 0 2) := by
  ext i hi
  interval_cases i <;> simp [classMask, classWord]

/-- A row that tests no other bit than those of `classMask` cannot tell `v` from its tested bits. -/
theorem matchingRows_and_classMask {rows : List CtrlRow} (h : ∀ r ∈ rows, classMask &&& r.mask = r.mask) (v : Word) :
    matchingRows rows v = matchingRows rows (v &&& classMask) := by
  refine List.filter_congr fun r hr => ?_
  rw [BitVec.and_assoc, h r hr]

theorem matchingRows_length_of_classWord {rows : List CtrlRow} (hmask : ∀ r ∈ rows, classMask &&& r.mask = r.mask)
    (hclass : ∀ hi mid lo, (matchingRows rows (classWord hi mid lo)).length = 1) (v : Word) :
    (matchingRows rows v).length = 1 := by
  rw [matchingRows_and_classMask hmask, and_classMask_eq]
  exact hclass _ _ _

theorem matchingRows_idleRows_length (v : Word) : (matchingRows idleRows v).length = 1 :=
  matchingRows_length_of_classWord (by decide) (by decide) v

theorem matchingRows_runningRows_length (v : Word) : (matchingRows runningRows v).length = 1 :=
  matchingRows_length_of_classWord (by decide) (by decide) v

/-- The rows that a control point decodes with, of which one matches each value. -/
theorem matchingRows_length (running : Bool) (v : Word) :
    (matchingRows (if running then runningRows else idleRows) v).length = 1 := by
  cases running
  · exact matchingRows_idleRows_length v
  · exact matchingRows_runningRows_length v

/-! ### The first match -/

theorem firstMatch_of_matchingRows {rows rest : List CtrlRow} {v : Word} {r : CtrlRow}
    (h : matchingRows rows v = r :: rest) : firstMatch rows v = .ok (r.build v) := by
  induction rows with
  | nil => cases h
  | cons r' rows ih =>
    by_cases hm : v &&& r'.mask = r'.pattern
    · have hr : r' = r := by simp [matchingRows, hm] at h; exact h.1
      rw [firstMatch, if_pos hm, hr]
    · rw [firstMatch, if_neg hm]
      exact ih (by simpa [matchingRows, hm] using h)

/-- Where one row matches, the first match is any row that matches. -/
theorem firstMatch_of_mem {rows : List CtrlRow} {v : Word} {r : CtrlRow} (hone : (matchingRows rows v).length = 1)
    (hr : r ∈ rows) (hm : v &&& r.mask = r.pattern) : firstMatch rows v = .ok (r.build v) := by
  obtain ⟨r', hr'⟩ := List.length_eq_one_iff.mp hone
  have hmem : r ∈ matchingRows rows v := List.mem_filter.mpr ⟨hr, by simpa using hm⟩
  rw [hr', List.mem_singleton] at hmem
  exact firstMatch_of_matchingRows (hmem ▸ hr')

theorem firstMatch_ok_of_one {rows : List CtrlRow} {v : Word} (hone : (matchingRows rows v).length = 1) :
    ∃ i, firstMatch rows v = .ok i := by
  obtain ⟨r, hr⟩ := List.length_eq_one_iff.mp hone
  exact ⟨_, firstMatch_of_matchingRows hr⟩

/-- What the first match gives was built by a row that matches. -/
theorem firstMatch_eq_ok {rows : List CtrlRow} {v : Word} {i : Instr} (h : firstMatch rows v = .ok i) :
    ∃ r ∈ rows, v &&& r.mask = r.pattern ∧ i = r.build v := by
  induction rows with
  | nil => cases h
  | cons r rows ih =>
    by_cases hm : v &&& r.mask = r.pattern
    · rw [firstMatch, if_pos hm] at h
      cases h
      exact ⟨r, List.mem_cons_self, hm, rfl⟩
    · rw [firstMatch, if_neg hm] at h
      obtain ⟨r', hr', hmi⟩ := ih h
      exact ⟨r', List.mem_cons_of_mem r hr', hmi⟩

/-! ### Every value is the disjunction of its fields -/

theorem within_and (m v : Word) : within m (v &&& m) = true := by
  simp [within, BitVec.and_assoc]

/-- The fixed bits of a row and the bits of its other places make up the value. -/
theorem or_and_of_class {v m q o : Word} (h : v &&& m = q) (hmo : m ||| o = 0xFFFF) : q ||| v &&& o = v := by
  rw [← h, ← BitVec.and_or_distrib_left, hmo]
  exact BitVec.and_allOnes

theorem sizeCode_in_place (v : Word) : ((sizeCode v).setWidth 16 : Word) <<< 4 = v &&& 0x0070 := by
  ext i hi
  interval_cases i <;> simp [sizeCode, bitField]

theorem ipgCode_in_place (v : Word) : ((ipgCode v).setWidth 16 : Word) <<< 10 = v &&& 0x0C00 := by
  ext i hi
  interval_cases i <;> simp [ipgCode, bitField]

theorem modeBits_modeOf (v : Word) : modeBits (modeOf v) = v &&& 0x2000 := by
  ext i hi
  cases h : v.getLsbD 13 <;> interval_cases i <;> simp_all [modeOf, modeBits]

theorem runBits_enable_start (v : Word) : runBits (enableBit v) (startBit v) = v &&& 0x0003 := by
  unfold enableBit startBit
  ext i hi
  cases h0 : v.getLsbD 0 <;> cases h1 : v.getLsbD 1 <;> interval_cases i <;> simp_all [runBits]

theorem startWord_of_fields {v q : Word} (h : v &&& classMask = q) :
    startWord q (sizeCode v) (ipgCode v) (v &&& unassignedMask) = v := by
  unfold startWord
  rw [sizeCode_in_place, ipgCode_in_place, ← h, ← BitVec.and_or_distrib_left, ← BitVec.and_or_distrib_left]
  exact or_and_of_class rfl (by decide)

/-- The Debug row leaves bit 13 to its mode operand. -/
theorem debugWord_of_fields {v : Word} (h : v &&& 0x0383 = 0x0303) : v &&& classMask = 0x0303 ||| modeBits (modeOf v) := by
  rw [modeBits_modeOf, ← h, ← BitVec.and_or_distrib_left]
  rfl

theorem dataWord_of_fields (v : Word) : dataWord (dstNibble v) (srcNibble v) (fillByte v) = v := by
  ext i hi
  interval_cases i <;> simp [dataWord, dstNibble, srcNibble, fillByte, bitField]

theorem fields_of_dataWord (d s : BitVec 4) (f : Byte) :
    dstNibble (dataWord d s f) = d ∧ srcNibble (dataWord d s f) = s ∧ fillByte (dataWord d s f) = f := by
  refine ⟨?_, ?_, ?_⟩ <;> ext i hi <;> interval_cases i <;>
    simp [dataWord, dstNibble, srcNibble, fillByte, bitField]

/-! ### The fields of an encoded value -/

theorem or_and_within {q o m : Word} (hq : q &&& m = 0) (ho : within m o = true) : (q ||| o) &&& m = o := by
  rw [BitVec.and_or_distrib_right, hq, and_within ho BitVec.and_self]
  simp

/-- A start row's operands stand in its value, for whatever is built of them. -/
theorem operands_of_startWord {α : Type} (f : BitVec 3 → BitVec 2 → Word → α) {q u : Word} (c : BitVec 3) (g : BitVec 2)
    (hq : StartPattern q) (hu : within unassignedMask u = true) :
    f (sizeCode (startWord q c g u)) (ipgCode (startWord q c g u)) (startWord q c g u &&& unassignedMask) = f c g u := by
  rw [sizeCode_startWord q u c g hu hq.size, ipgCode_startWord q u c g hu hq.ipg,
    unassigned_startWord q u c g hu hq.unassigned]

/-- The fixed bits of the start row of a packet-type code and a mode: both run bits, the code and the mode. -/
def startBits (code : BitVec 2) (m : Mode) : Word := 0x0003 ||| code.setWidth 16 <<< 8 ||| modeBits m

theorem startPattern_startBits (code : BitVec 2) (m : Mode) : StartPattern (startBits code m) := by
  refine ⟨?_, ?_, ?_, ?_, ?_, ?_⟩ <;> revert code <;> cases m <;> decide

theorem modeOf_debug : ∀ m, modeOf (0x0303 ||| modeBits m) = m
  | .continuous => rfl
  | .single => rfl

/-! ### Decoding by the row that matches -/

theorem decode_idle_row {v : Word} {i : Instr} (k : Fin 11) (hm : v &&& idleRows[k].mask = idleRows[k].pattern)
    (hi : idleRows[k].build v = i) : decode false (.wrCtrl v) = .ok i :=
  hi ▸ firstMatch_of_mem (matchingRows_idleRows_length v) (List.getElem_mem _) hm

theorem decode_running_row {v : Word} {i : Instr} (k : Fin 5) (hm : v &&& runningRows[k].mask = runningRows[k].pattern)
    (hi : runningRows[k].build v = i) : decode true (.wrCtrl v) = .ok i :=
  hi ▸ firstMatch_of_mem (matchingRows_runningRows_length v) (List.getElem_mem _) hm

theorem decode_encode_wrData (running : Bool) (d s : BitVec 4) (f : Byte) :
    decode running (encode (.wrData d s f)) = .ok (.wrData d s f) := by
  obtain ⟨hd, hs, hf⟩ := fields_of_dataWord d s f
  simp only [encode, decode, hd, hs, hf]

theorem decode_false_encode {i : Instr} (hwf : i.wellFormed = true) (hat : i.decodedAt false = true) :
    decode false (encode i) = .ok i := by
  cases i with
  | ctrlReserved o =>
    exact decode_idle_row 0 (Laws.RowBits.ctrlReserved o hwf _ _ _ rfl rfl)
      (congrArg Instr.ctrlReserved (or_and_within (by decide) hwf))
  | ctrlNotrun00 o =>
    exact decode_idle_row 1 (Laws.RowBits.ctrlNotrun00 o hwf _ _ _ rfl rfl)
      (congrArg Instr.ctrlNotrun00 (or_and_within (by decide) hwf))
  | ctrlNotrun01 o =>
    exact decode_idle_row 2 (Laws.RowBits.ctrlNotrun01 o hwf _ _ _ rfl rfl)
      (congrArg Instr.ctrlNotrun01 (or_and_within (by decide) hwf))
  | ctrlNotrun10 o =>
    exact decode_idle_row 3 (Laws.RowBits.ctrlNotrun10 o hwf _ _ _ rfl rfl)
      (congrArg Instr.ctrlNotrun10 (or_and_within (by decide) hwf))
  | ctrlStartDebug c g m u =>
    refine decode_idle_row 4 (Laws.RowBits.ctrlStartDebug c g m u hwf _ _ _ rfl rfl) ?_
    have hmode : modeOf (startWord (0x0303 ||| modeBits m) c g u) = m :=
      (modeOf_startWord _ u c g hwf).trans (modeOf_debug m)
    exact (congrArg (fun m' => Instr.ctrlStartDebug _ _ m' _) hmode).trans
      (operands_of_startWord (fun c g u => Instr.ctrlStartDebug c g m u) c g (startPattern_startBits 3 m) hwf)
  | ctrlStartContRandom c g u =>
    exact decode_idle_row 5 (Laws.RowBits.ctrlStartContRandom c g u hwf _ _ _ rfl rfl)
      (operands_of_startWord Instr.ctrlStartContRandom c g (startPattern_startBits 0 .continuous) hwf)
  | ctrlStartContIncr c g u =>
    exact decode_idle_row 6 (Laws.RowBits.ctrlStartContIncr c g u hwf _ _ _ rfl rfl)
      (operands_of_startWord Instr.ctrlStartContIncr c g (startPattern_startBits 1 .continuous) hwf)
  | ctrlStartContPredef c g u =>
    exact decode_idle_row 7 (Laws.RowBits.ctrlStartContPredef c g u hwf _ _ _ rfl rfl)
      (operands_of_startWord Instr.ctrlStartContPredef c g (startPattern_startBits 2 .continuous) hwf)
  | ctrlStartSingleRandom c g u =>
    exact decode_idle_row 8 (Laws.RowBits.ctrlStartSingleRandom c g u hwf _ _ _ rfl rfl)
      (operands_of_startWord Instr.ctrlStartSingleRandom c g (startPattern_startBits 0 .single) hwf)
  | ctrlStartSingleIncr c g u =>
    exact decode_idle_row 9 (Laws.RowBits.ctrlStartSingleIncr c g u hwf _ _ _ rfl rfl)
      (operands_of_startWord Instr.ctrlStartSingleIncr c g (startPattern_startBits 1 .single) hwf)
  | ctrlStartSinglePredef c g u =>
    exact decode_idle_row 10 (Laws.RowBits.ctrlStartSinglePredef c g u hwf _ _ _ rfl rfl)
      (operands_of_startWord Instr.ctrlStartSinglePredef c g (startPattern_startBits 2 .single) hwf)
  | ctrlrReserved | ctrlrStop | ctrlrNostop01 | ctrlrNostop10 | ctrlrNostop11 => cases hat
  | wrData d s f => exact decode_encode_wrData false d s f
  | setLimit | cancel | sendDoneOk | sendDoneErr | gapElapsed => rfl

/-- The reserved row of Running reads its two run bits back. -/
theorem fields_of_reservedWord (e t : Bool) {o : Word} (ho : within notrunOther o = true) :
    enableBit (0x0080 ||| runBits e t ||| o) = e ∧ startBit (0x0080 ||| runBits e t ||| o) = t ∧
    (0x0080 ||| runBits e t ||| o) &&& notrunOther = o := by
  rw [enableBit_or _ _ ho, startBit_or _ _ ho]
  refine ⟨?_, ?_, or_and_within ?_ ho⟩ <;> cases e <;> cases t <;> rfl

theorem decode_true_encode {i : Instr} (hwf : i.wellFormed = true) (hat : i.decodedAt true = true) :
    decode true (encode i) = .ok i := by
  cases i with
  | ctrlrReserved e t o =>
    refine decode_running_row 0 (Laws.RowBits.ctrlrReserved e t o hwf _ _ _ rfl rfl) ?_
    obtain ⟨he, ht, ho⟩ := fields_of_reservedWord e t hwf
    show Instr.ctrlrReserved _ _ _ = _
    rw [he, ht, ho]
  | ctrlrStop o =>
    exact decode_running_row 1 (Laws.RowBits.ctrlrStop o hwf _ _ _ rfl rfl)
      (congrArg Instr.ctrlrStop (or_and_within (by decide) hwf))
  | ctrlrNostop01 o =>
    exact decode_running_row 2 (Laws.RowBits.ctrlrNostop01 o hwf _ _ _ rfl rfl)
      (congrArg Instr.ctrlrNostop01 (or_and_within (by decide) hwf))
  | ctrlrNostop10 o =>
    exact decode_running_row 3 (Laws.RowBits.ctrlrNostop10 o hwf _ _ _ rfl rfl)
      (congrArg Instr.ctrlrNostop10 (or_and_within (by decide) hwf))
  | ctrlrNostop11 o =>
    exact decode_running_row 4 (Laws.RowBits.ctrlrNostop11 o hwf _ _ _ rfl rfl)
      (congrArg Instr.ctrlrNostop11 (or_and_within (by decide) hwf))
  | ctrlReserved | ctrlNotrun00 | ctrlNotrun01 | ctrlNotrun10 | ctrlStartDebug | ctrlStartContRandom |
    ctrlStartContIncr | ctrlStartContPredef | ctrlStartSingleRandom | ctrlStartSingleIncr | ctrlStartSinglePredef =>
    cases hat
  | wrData d s f => exact decode_encode_wrData true d s f
  | setLimit | cancel | sendDoneOk | sendDoneErr | gapElapsed => rfl

/-- What a matching row of Idle builds is well formed and encodes back to the value. -/
theorem idleRows_build {v : Word} {r : CtrlRow} (hr : r ∈ idleRows) (hm : v &&& r.mask = r.pattern) :
    encode (r.build v) = .wrCtrl v ∧ (r.build v).wellFormed = true ∧ (r.build v).decodedAt false = true := by
  simp only [idleRows, List.mem_cons, List.not_mem_nil, or_false] at hr
  rcases hr with rfl | rfl | rfl | rfl | rfl | hstart
  -- the reserved row and the three not-a-start rows
  iterate 4 exact ⟨congrArg Event.wrCtrl (or_and_of_class hm (by decide)), within_and _ v, rfl⟩
  · exact ⟨congrArg Event.wrCtrl (startWord_of_fields (debugWord_of_fields hm)), within_and _ v, rfl⟩
  · rcases hstart with rfl | rfl | rfl | rfl | rfl | rfl <;>
      exact ⟨congrArg Event.wrCtrl (startWord_of_fields hm), within_and _ v, rfl⟩

/-- The reserved row of Running holds the run bits as operands. -/
theorem reservedWord_of_fields {v : Word} (h : v &&& 0x0080 = 0x0080) :
    0x0080 ||| runBits (enableBit v) (startBit v) ||| v &&& notrunOther = v := by
  rw [runBits_enable_start, ← h, ← BitVec.and_or_distrib_left]
  exact or_and_of_class rfl (by decide)

/-- What a matching row of Running builds is well formed and encodes back to the value. -/
theorem runningRows_build {v : Word} {r : CtrlRow} (hr : r ∈ runningRows) (hm : v &&& r.mask = r.pattern) :
    encode (r.build v) = .wrCtrl v ∧ (r.build v).wellFormed = true ∧ (r.build v).decodedAt true = true := by
  simp only [runningRows, List.mem_cons, List.not_mem_nil, or_false] at hr
  rcases hr with rfl | hother
  · exact ⟨congrArg Event.wrCtrl (reservedWord_of_fields hm), within_and _ v, rfl⟩
  · rcases hother with rfl | rfl | rfl | rfl <;>
      exact ⟨congrArg Event.wrCtrl (or_and_of_class hm (by decide)), within_and _ v, rfl⟩

/-! ### The statements -/

/-- Settles O1: an encoded value has its row's fixed bits, so that row alone matches, and each operand is read back from
its own places. -/
theorem decodeOfEncodeIsTheInstruction : Obligations.DecodeOfEncodeIsTheInstruction := by
  intro i running hwf hat
  cases running
  · exact decode_false_encode hwf hat
  · exact decode_true_encode hwf hat

/-- Settles O2: the row that matched built the instruction of the value's fields, which make up the value. -/
theorem encodeOfDecodeIsTheEvent : Obligations.EncodeOfDecodeIsTheEvent := by
  intro running e i h
  cases e with
  | wrCtrl v =>
    cases running
    · obtain ⟨r, hr, hm, rfl⟩ := firstMatch_eq_ok h
      exact idleRows_build hr hm
    · obtain ⟨r, hr, hm, rfl⟩ := firstMatch_eq_ok h
      exact runningRows_build hr hm
  | wrData v =>
    cases h
    exact ⟨congrArg Event.wrData (dataWord_of_fields v), rfl, rfl⟩
  | setLimit | cancel | sendDoneOk | sendDoneErr | gapElapsed =>
    cases h
    exact ⟨rfl, rfl, rfl⟩

/-- Settles O3: one row of each table matches, by the tested bits, and the other events decode by their interface. -/
theorem everyCtrlValueHasExactlyOneClass : Obligations.EveryCtrlValueHasExactlyOneClass := by
  refine ⟨matchingRows_idleRows_length, matchingRows_runningRows_length, fun running e => ?_⟩
  cases e with
  | wrCtrl v => exact firstMatch_ok_of_one (matchingRows_length running v)
  | wrData | setLimit | cancel | sendDoneOk | sendDoneErr | gapElapsed => exact ⟨_, rfl⟩

/-- Settles O4: each word is decoded by evaluation. -/
theorem wordsOfTheSpecDecodeAsWritten : Obligations.WordsOfTheSpecDecodeAsWritten :=
  ⟨rfl, rfl, rfl, rfl, rfl, rfl, rfl, rfl, rfl, rfl⟩

end Sys2Proof
end

section
/-! What an instruction can do (42_generator_fsm.md R151 to R164), one constructor per outcome with the exact next state,
and that an instruction completes with a next state exactly when one of them gives it. The statements about
instructions go through this layer and open no operation again. -/

namespace Sys2Proof.Machine

/-! ### Admission of an event -/

/-- The admission table of events (42_generator_fsm.md R151). -/
def eventAdmitted (cp : ControlPoint) : Event → Bool
  | .sendDoneOk => cp == .awaitSend
  | .sendDoneErr _ => cp == .awaitSend
  | .gapElapsed => cp == .gap
  | .wrCtrl _ => true
  | .wrData _ => true
  | .setLimit _ => true
  | .cancel => true

/-- Whether the event comes from the host (42_generator_fsm.md R150). -/
def eventFromHost : Event → Bool
  | .sendDoneOk => false
  | .sendDoneErr _ => false
  | .gapElapsed => false
  | .wrCtrl _ => true
  | .wrData _ => true
  | .setLimit _ => true
  | .cancel => true

/-- The refusal of an event that is not admitted (log 10). -/
def eventRefusal : Event → Refusal
  | .gapElapsed => .gapElapsedNotAdmitted
  | _ => .sendDoneNotAdmitted

theorem admits_eq_eventAdmitted (cp : ControlPoint) (i : Instr) : admits cp i = eventAdmitted cp (encode i) := by
  cases i <;> rfl

theorem fromHost_eq_eventFromHost (i : Instr) : fromHost i = eventFromHost (encode i) := by
  cases i <;> rfl

theorem eventAdmitted_of_fromHost {e : Event} (cp : ControlPoint) (h : eventFromHost e = true) :
    eventAdmitted cp e = true := by
  cases e with
  | sendDoneOk | sendDoneErr | gapElapsed => cases h
  | wrCtrl | wrData | setLimit | cancel => rfl

/-- An admitted event completes, and one that is not admitted is refused by its name. -/
theorem perform_of_admission (e : Event) (s : State) :
    (eventAdmitted s.controlPoint e = true ∧ ∃ t, perform e s = .next t) ∨
    (eventAdmitted s.controlPoint e = false ∧ perform e s = .refused (eventRefusal e)) := by
  cases e with
  | wrCtrl | wrData | setLimit | cancel => exact .inl ⟨rfl, _, rfl⟩
  | sendDoneOk =>
    rcases hf : s.fsm with _ | ⟨_ | _, p⟩ <;>
      simp [State.controlPoint, perform, execSendDoneOk, hf, eventAdmitted, eventRefusal]
  | sendDoneErr t =>
    rcases hf : s.fsm with _ | ⟨_ | _, p⟩ <;>
      simp [State.controlPoint, perform, execSendDoneErr, hf, eventAdmitted, eventRefusal]
  | gapElapsed =>
    rcases hf : s.fsm with _ | ⟨_ | _, p⟩ <;>
      simp [State.controlPoint, perform, execGapElapsed, hf, eventAdmitted, eventRefusal]

theorem exec_next_iff_admitted {i : Instr} {s : State} :
    (∃ t, exec i s = .next t) ↔ eventAdmitted s.controlPoint (encode i) = true := by
  rw [exec_eq_perform]
  rcases perform_of_admission (encode i) s with ⟨h, ht⟩ | ⟨h, hr⟩
  · exact ⟨fun _ => h, fun _ => ht⟩
  · simp [h, hr]

theorem exec_refused_iff {i : Instr} {s : State} {q : Refusal} :
    exec i s = .refused q ↔ eventAdmitted s.controlPoint (encode i) = false ∧ q = eventRefusal (encode i) := by
  rw [exec_eq_perform]
  rcases perform_of_admission (encode i) s with ⟨h, t, ht⟩ | ⟨h, hr⟩
  · simp [h, ht]
  · simp [h, hr, eq_comm]

/-! ### The outcomes -/

/-- `Effect s e t`: the event `e` takes the block from `s` to `t`. Each constructor names what happens, with the
conditions it happens under. -/
inductive Effect (s : State) : Event → State → Prop where
  /-- Idle: the value starts no run (R155). -/
  | startRejected {v err} (hidle : s.fsm = .idle) (hplan : resolvePlan s.cfg v s.data = .error err) :
      Effect s (.wrCtrl v) (answeredWith s v (.rejected err))
  /-- Idle: a continuous run with limit 0 ends at its first stop check (R153, R154). -/
  | startLimited {v p} (hidle : s.fsm = .idle) (hplan : resolvePlan s.cfg v s.data = .ok p)
      (hmode : p.mode = .continuous) (hlimit : s.limit = some 0) :
      Effect s (.wrCtrl v) (endedAtStart s v .limitReached s.rng)
  /-- Idle: the first synthesis fails (R154). -/
  | startFailed {v p err g} (hidle : s.fsm = .idle) (hplan : resolvePlan s.cfg v s.data = .ok p)
      (hgo : p.mode = .continuous → s.limit ≠ some 0) (hsyn : synthesize s.cfg p s.rng = (.error err, g)) :
      Effect s (.wrCtrl v) (endedAtStart s v (.failed err) g)
  /-- Idle: the first frame is emitted (R154). -/
  | startEmitted {v p f g} (hidle : s.fsm = .idle) (hplan : resolvePlan s.cfg v s.data = .ok p)
      (hgo : p.mode = .continuous → s.limit ≠ some 0) (hsyn : synthesize s.cfg p s.rng = (.ok f, g)) :
      Effect s (.wrCtrl v) (startedWith s v p f g)
  /-- Running: bit 7 is set (R156). -/
  | writeRejected {v ph p} (hrun : s.fsm = .running ph p) (hbit : reservedBit v = true) :
      Effect s (.wrCtrl v) (answeredWith s v (.rejected (.reservedBitSet (v &&& 0xFF7F))))
  /-- Running.Gap: a stop value ends the run (R156). -/
  | writeStops {v p} (hgap : s.fsm = .running .gap p) (hbit : reservedBit v = false) (hmode : p.mode = .continuous)
      (hstop : stopTest s.cfg.stopRule (optionsOf s.cfg v) = true) :
      Effect s (.wrCtrl v)
        { s with ctrl := v, fsm := .idle, outputs := s.outputs ++ [.resp .ack, .runEnd .stopped s.count] }
  /-- Running.AwaitSend: a stop value is recorded (R156). -/
  | stopRecorded {v p} (hsend : s.fsm = .running .awaitSend p) (hbit : reservedBit v = false)
      (hmode : p.mode = .continuous) (hstop : stopTest s.cfg.stopRule (optionsOf s.cfg v) = true) :
      Effect s (.wrCtrl v) { s with ctrl := v, stopReq := true, outputs := s.outputs ++ [.resp .ack] }
  /-- Running: any other value is acknowledged (R156). -/
  | writeAcknowledged {v ph p} (hrun : s.fsm = .running ph p) (hbit : reservedBit v = false)
      (hgo : ¬(p.mode = .continuous ∧ stopTest s.cfg.stopRule (optionsOf s.cfg v) = true)) :
      Effect s (.wrCtrl v) (answeredWith s v .ack)
  /-- R157. -/
  | dataWritten {v} : Effect s (.wrData v) { s with data := v, outputs := s.outputs ++ [.resp .ack] }
  /-- R158. -/
  | limitWritten {l} : Effect s (.setLimit l) { s with limit := l, outputs := s.outputs ++ [.resp .ack] }
  /-- CANCEL in Idle (R159). -/
  | cancelInIdle (hidle : s.fsm = .idle) : Effect s .cancel (s.out (.resp .ack))
  /-- CANCEL in a single-mode run (R160). -/
  | cancelInSingle {p} (hsend : s.fsm = .running .awaitSend p) (hmode : p.mode = .single) :
      Effect s .cancel (s.out (.resp .ack))
  /-- CANCEL with a frame of a continuous run in flight (R160). -/
  | cancelRecorded {p} (hsend : s.fsm = .running .awaitSend p) (hmode : p.mode = .continuous) :
      Effect s .cancel ((s.out (.resp .ack)).setCancel true)
  /-- CANCEL in the gap (R161). -/
  | cancelEnds {p} (hgap : s.fsm = .running .gap p) :
      Effect s .cancel { s with fsm := .idle, outputs := s.outputs ++ [.resp .ack, .runEnd .cancelled s.count] }
  /-- SENDDONE(Ok) of a single run (R162). -/
  | frameCompletes {p} (hsend : s.fsm = .running .awaitSend p) (hmode : p.mode = .single) :
      Effect s .sendDoneOk (endedWith s .completed (countNext s.cfg s.count))
  /-- SENDDONE(Ok) of a continuous run whose stop is due (R162). -/
  | frameStops {p r} (hsend : s.fsm = .running .awaitSend p) (hmode : p.mode = .continuous)
      (hstop : (s.setCount (countNext s.cfg s.count)).checkStop = some r) :
      Effect s .sendDoneOk (endedWith s r (countNext s.cfg s.count))
  /-- SENDDONE(Ok) of a continuous run that goes on (R162). -/
  | framePaces {p} (hsend : s.fsm = .running .awaitSend p) (hmode : p.mode = .continuous)
      (hgo : (s.setCount (countNext s.cfg s.count)).checkStop = none) :
      Effect s .sendDoneOk { s with
        count := countNext s.cfg s.count, fsm := .running .gap p, outputs := s.outputs ++ [.gapStart p.ipgBits] }
  /-- SENDDONE(Err) (R163). -/
  | sendFailed {p x} (hsend : s.fsm = .running .awaitSend p) :
      Effect s (.sendDoneErr x) (endedWith s (.failed (.transportError x)) s.count)
  /-- GAPELAPSED of a run whose stop is due (R164). -/
  | gapStops {p r} (hgap : s.fsm = .running .gap p) (hstop : s.iterationStop p.mode = some r) :
      Effect s .gapElapsed (endedWith s r s.count)
  /-- GAPELAPSED whose synthesis fails (R164). -/
  | gapFails {p err g} (hgap : s.fsm = .running .gap p) (hgo : s.iterationStop p.mode = none)
      (hsyn : synthesize s.cfg p s.rng = (.error err, g)) :
      Effect s .gapElapsed { endedWith s (.failed err) s.count with rng := g }
  /-- GAPELAPSED whose next frame is emitted (R164). -/
  | gapEmits {p f g} (hgap : s.fsm = .running .gap p) (hgo : s.iterationStop p.mode = none)
      (hsyn : synthesize s.cfg p s.rng = (.ok f, g)) :
      Effect s .gapElapsed { s with fsm := .running .awaitSend p, rng := g, outputs := s.outputs ++ [.send f] }

/-! ### The first iteration of a run -/

/-- The block when a start value has been accepted, before its first iteration (R155). -/
def State.accepting (s : State) (v : Word) : State := ((s.writeCtrl v).out (.resp .accepted)).freshRun

/-- A fresh run has no request and count 0, so at its first stop check only a limit of 0 is due (R153). -/
theorem State.accepting_checkStop (s : State) (v : Word) :
    (s.accepting v).checkStop = if s.limit = some 0 then some .limitReached else none := by
  unfold State.checkStop State.accepting
  rcases hl : s.limit with _ | _ | n <;> simp [hl, limitReached]

theorem State.accepting_iterationStop_eq_none {s : State} {v : Word} {m : Mode} :
    (s.accepting v).iterationStop m = none ↔ (m = .continuous → s.limit ≠ some 0) := by
  cases m <;> simp [State.accepting_checkStop]

theorem State.accepting_iterationStop_eq_some {s : State} {v : Word} {m : Mode} {r : Reason} :
    (s.accepting v).iterationStop m = some r ↔ m = .continuous ∧ s.limit = some 0 ∧ r = .limitReached := by
  cases m <;> simp [State.accepting_checkStop, eq_comm]

/-! ### Every next state is an outcome -/

section
variable (s : State) (v : Word)

theorem State.endRun_accepting (r : Reason) : (s.accepting v).endRun r = endedAtStart s v r s.rng :=
  congrArg (fun os => { endedAtStart s v r s.rng with outputs := os }) (List.append_assoc s.outputs [_] [_])

theorem State.fail_accepting (r : Reason) (g : DrawSource) :
    ((s.accepting v).setRng g).endRun r = endedAtStart s v r g :=
  congrArg (fun os => { endedAtStart s v r g with outputs := os }) (List.append_assoc s.outputs [_] [_])

theorem State.emit_accepting (p : Plan) (f : Frame) (g : DrawSource) :
    (((s.accepting v).setRng g).out (.send f)).setFsm (.running .awaitSend p) = startedWith s v p f g :=
  congrArg (fun os => { startedWith s v p f g with outputs := os }) (List.append_assoc s.outputs [_] [_])

/-- The two outputs of a host event that ends the run. -/
theorem State.endRun_of_ack (r : Reason) :
    (s.out (.resp .ack)).endRun r = { s with fsm := .idle, outputs := s.outputs ++ [.resp .ack, .runEnd r s.count] } :=
  congrArg (fun os => { s with fsm := .idle, outputs := os }) (List.append_assoc s.outputs [_] [_])

end

theorem effect_writeCtrlIdle {s : State} (v : Word) (hidle : s.fsm = .idle) :
    Effect s (.wrCtrl v) (s.writeCtrlIdle v) := by
  rcases s.writeCtrlIdle_cases v with ⟨err, hplan, ht⟩ | ⟨p, hplan, ht⟩
  · exact ht ▸ .startRejected hidle hplan
  · rw [ht, ← State.accepting]
    rcases (s.accepting v).iterate_cases p with
      ⟨r, hstop, hit⟩ | ⟨hgo, err, g, hsyn, hit⟩ | ⟨hgo, f, g, hsyn, hit⟩ <;> rw [hit]
    · obtain ⟨hmode, hlimit, rfl⟩ := State.accepting_iterationStop_eq_some.mp hstop
      exact s.endRun_accepting v _ ▸ .startLimited hidle hplan hmode hlimit
    · exact s.fail_accepting v _ _ ▸ .startFailed hidle hplan (State.accepting_iterationStop_eq_none.mp hgo) hsyn
    · exact s.emit_accepting v _ _ _ ▸ .startEmitted hidle hplan (State.accepting_iterationStop_eq_none.mp hgo) hsyn

theorem effect_writeCtrlRunning {s : State} (v : Word) {ph : Phase} {p : Plan} (hrun : s.fsm = .running ph p) :
    Effect s (.wrCtrl v) (s.writeCtrlRunning ph p v) := by
  rcases s.writeCtrlRunning_cases ph p v with
    ⟨hbit, ht⟩ | ⟨hbit, hmode, hstop, rfl, ht⟩ | ⟨hbit, hmode, hstop, rfl, ht⟩ | ⟨hbit, hgo, ht⟩
  · exact ht ▸ .writeRejected hrun hbit
  · rw [ht, State.endRun_of_ack]
    exact .writeStops hrun hbit hmode hstop
  · exact ht ▸ .stopRecorded hrun hbit hmode hstop
  · exact ht ▸ .writeAcknowledged hrun hbit hgo

theorem effect_hostCancel (s : State) : Effect s .cancel s.hostCancel := by
  rcases s.hostCancel_cases with ⟨hidle, ht⟩ | ⟨p, hsend, hmode, ht⟩ | ⟨p, hsend, hmode, ht⟩ | ⟨p, hgap, ht⟩
  · exact ht ▸ .cancelInIdle hidle
  · exact ht ▸ .cancelRecorded hsend hmode
  · exact ht ▸ .cancelInSingle hsend hmode
  · rw [ht, State.endRun_of_ack]
    exact .cancelEnds hgap

theorem effect_frameAccepted {s : State} {p : Plan} (hsend : s.fsm = .running .awaitSend p) :
    Effect s .sendDoneOk (s.frameAccepted p) := by
  rcases s.frameAccepted_cases p with ⟨hmode, ht⟩ | ⟨hmode, r, hstop, ht⟩ | ⟨hmode, hgo, ht⟩
  · exact ht ▸ .frameCompletes hsend hmode
  · exact ht ▸ .frameStops hsend hmode hstop
  · exact ht ▸ .framePaces hsend hmode hgo

theorem effect_iterate {s : State} {p : Plan} (hgap : s.fsm = .running .gap p) :
    Effect s .gapElapsed (s.iterate p) := by
  rcases s.iterate_cases p with ⟨r, hstop, ht⟩ | ⟨hgo, err, g, hsyn, ht⟩ | ⟨hgo, f, g, hsyn, ht⟩
  · exact ht ▸ .gapStops hgap hstop
  · exact ht ▸ .gapFails hgap hgo hsyn
  · exact ht ▸ .gapEmits hgap hgo hsyn

/-- A next state is an outcome. -/
theorem effect_of_exec {i : Instr} {s t : State} (h : exec i s = .next t) : Effect s (encode i) t := by
  rcases exec_next_cases h with ⟨v, he, hidle, rfl⟩ | ⟨v, ph, p, he, hrun, rfl⟩ | ⟨v, he, rfl⟩ | ⟨l, he, rfl⟩ |
    ⟨he, rfl⟩ | ⟨p, he, hsend, rfl⟩ | ⟨p, x, he, hsend, rfl⟩ | ⟨p, he, hgap, rfl⟩ <;> rw [he]
  · exact effect_writeCtrlIdle v hidle
  · exact effect_writeCtrlRunning v hrun
  · exact .dataWritten
  · exact .limitWritten
  · exact effect_hostCancel s
  · exact effect_frameAccepted hsend
  · exact .sendFailed hsend
  · exact effect_iterate hgap

/-! ### Every outcome is the next state -/

section
variable {s : State} {p : Plan}

theorem State.iterate_of_stop {r : Reason} (h : s.iterationStop p.mode = some r) : s.iterate p = s.endRun r := by
  simp [State.iterate, h]

theorem State.iterate_of_error {err : Err} {g : DrawSource} (hgo : s.iterationStop p.mode = none)
    (hsyn : synthesize s.cfg p s.rng = (.error err, g)) : s.iterate p = (s.setRng g).endRun (.failed err) := by
  simp [State.iterate, hgo, hsyn]

theorem State.iterate_of_frame {f : Frame} {g : DrawSource} (hgo : s.iterationStop p.mode = none)
    (hsyn : synthesize s.cfg p s.rng = (.ok f, g)) :
    s.iterate p = ((s.setRng g).out (.send f)).setFsm (.running .awaitSend p) := by
  simp [State.iterate, hgo, hsyn]

theorem State.hostWriteCtrl_of_reject {v : Word} {err : Err} (hidle : s.fsm = .idle)
    (hplan : resolvePlan s.cfg v s.data = .error err) : s.hostWriteCtrl v = answeredWith s v (.rejected err) := by
  simp only [State.hostWriteCtrl, hidle, State.writeCtrlIdle, hplan]
  rfl

theorem State.hostWriteCtrl_of_plan {v : Word} (hidle : s.fsm = .idle) (hplan : resolvePlan s.cfg v s.data = .ok p) :
    s.hostWriteCtrl v = (s.accepting v).iterate p := by
  simp only [State.hostWriteCtrl, hidle, State.writeCtrlIdle, hplan]
  rfl

theorem State.hostWriteCtrl_of_running {v : Word} {ph : Phase} (hrun : s.fsm = .running ph p) :
    s.hostWriteCtrl v = s.writeCtrlRunning ph p v := by
  simp only [State.hostWriteCtrl, hrun]

end

theorem Effect.perform_eq {s t : State} {e : Event} (h : Effect s e t) : perform e s = .next t := by
  cases h with
  | startRejected hidle hplan => exact congrArg Host.Outcome.next (State.hostWriteCtrl_of_reject hidle hplan)
  | @startLimited v p hidle hplan hmode hlimit =>
    have hstop : (s.accepting v).iterationStop p.mode = some .limitReached :=
      State.accepting_iterationStop_eq_some.mpr ⟨hmode, hlimit, rfl⟩
    rw [perform, State.hostWriteCtrl_of_plan hidle hplan, State.iterate_of_stop hstop, State.endRun_accepting]
  | @startFailed v p _ _ hidle hplan hgo hsyn =>
    have hgo : (s.accepting v).iterationStop p.mode = none := State.accepting_iterationStop_eq_none.mpr hgo
    rw [perform, State.hostWriteCtrl_of_plan hidle hplan, State.iterate_of_error hgo hsyn, State.fail_accepting]
  | @startEmitted v p _ _ hidle hplan hgo hsyn =>
    have hgo : (s.accepting v).iterationStop p.mode = none := State.accepting_iterationStop_eq_none.mpr hgo
    rw [perform, State.hostWriteCtrl_of_plan hidle hplan, State.iterate_of_frame hgo hsyn, State.emit_accepting]
  | writeRejected hrun hbit =>
    simp only [perform, State.hostWriteCtrl_of_running hrun, State.writeCtrlRunning, decodeCtrl_reserved hbit]
    rfl
  | writeStops hgap hbit hmode hstop =>
    simp only [perform, State.hostWriteCtrl_of_running hgap, State.writeCtrlRunning, decodeCtrl_ok hbit,
      if_pos (And.intro hmode hstop)]
    exact congrArg Host.Outcome.next ((s.writeCtrl _).endRun_of_ack .stopped)
  | stopRecorded hsend hbit hmode hstop =>
    simp only [perform, State.hostWriteCtrl_of_running hsend, State.writeCtrlRunning, decodeCtrl_ok hbit,
      if_pos (And.intro hmode hstop)]
    rfl
  | writeAcknowledged hrun hbit hgo =>
    simp only [perform, State.hostWriteCtrl_of_running hrun, State.writeCtrlRunning, decodeCtrl_ok hbit, if_neg hgo]
    rfl
  | dataWritten => rfl
  | limitWritten => rfl
  | cancelInIdle hidle => simp only [perform, State.hostCancel, hidle]; rfl
  | cancelInSingle hsend hmode => simp only [perform, State.hostCancel, hsend, hmode]; rfl
  | cancelRecorded hsend hmode => simp only [perform, State.hostCancel, hsend, hmode]; rfl
  | cancelEnds hgap =>
    simp only [perform, State.hostCancel, hgap]
    exact congrArg Host.Outcome.next (s.endRun_of_ack .cancelled)
  | frameCompletes hsend hmode =>
    simp only [perform, execSendDoneOk, hsend, State.frameAccepted, State.afterFrame, hmode]; rfl
  | frameStops hsend hmode hstop =>
    simp only [perform, execSendDoneOk, hsend, State.frameAccepted, State.afterFrame, hmode, hstop]; rfl
  | framePaces hsend hmode hgo =>
    simp only [perform, execSendDoneOk, hsend, State.frameAccepted, State.afterFrame, hmode, hgo]; rfl
  | sendFailed hsend => simp only [perform, execSendDoneErr, hsend]; rfl
  | gapStops hgap hstop => simp only [perform, execGapElapsed, hgap, State.iterate_of_stop hstop]; rfl
  | gapFails hgap hgo hsyn => simp only [perform, execGapElapsed, hgap, State.iterate_of_error hgo hsyn]; rfl
  | gapEmits hgap hgo hsyn => simp only [perform, execGapElapsed, hgap, State.iterate_of_frame hgo hsyn]; rfl

/-- An instruction completes with exactly the outcomes of the event it encodes. -/
theorem exec_next_iff {i : Instr} {s t : State} : exec i s = .next t ↔ Effect s (encode i) t :=
  ⟨effect_of_exec, fun h => (exec_eq_perform i s).trans h.perform_eq⟩

end Sys2Proof.Machine
end

section
/-! The new outputs of an outcome and of a step: what they may be, and that they carry on the conversation of
42_generator_fsm.md section 5 from control point to control point. -/

namespace Sys2Proof.Machine

/-! ### What no step changes -/

/-- No instruction writes the parameters. -/
theorem Effect.cfg_eq {s t : State} {e : Event} (h : Effect s e t) : t.cfg = s.cfg := by
  cases h <;> rfl

theorem Effect.plan_runLimit_eq {s t : State} {e : Event} (h : Effect s e t) {ph ph' : Phase} {p p' : Plan}
    (hs : s.fsm = .running ph p) (ht : t.fsm = .running ph' p') : p' = p ∧ t.runLimit = s.runLimit := by
  cases h with
  | startLimited hidle | startFailed hidle | startRejected hidle | startEmitted hidle | cancelInIdle hidle =>
    cases hs.symm.trans hidle
  | writeStops | cancelEnds | frameCompletes | frameStops | sendFailed | gapStops | gapFails => cases ht
  | framePaces hsend | gapEmits hsend =>
    cases hs.symm.trans hsend
    cases ht
    exact ⟨rfl, rfl⟩
  | _ =>
    cases hs.symm.trans ht
    exact ⟨rfl, rfl⟩

/-! ### Outputs -/

/-- The outputs of an instruction: their shape, and the conversation that they move from control point to control
point. -/
structure NewOutputs (s t : State) (e : Event) (new : List Output) : Prop where
  appended : t.outputs = s.outputs ++ new
  shape : (eventFromHost e = true ∧ ∃ a, new = [.resp a]) ∨
    (eventFromHost e = true ∧ ∃ a o, new = [.resp a, o] ∧ (∀ err, a ≠ .rejected err) ∧ ∀ b, o ≠ .resp b) ∨
    (eventFromHost e = false ∧ ∃ o, new = [o] ∧ ∀ b, o ≠ .resp b)
  talk : Talk.after s.controlPoint.talk new = some t.controlPoint.talk

/-- An acknowledgement or a rejection is in place at every control point and moves the conversation nowhere. -/
theorem talk_after_answer (cp : ControlPoint) {a : Response} (ha : a ≠ .accepted) :
    Talk.after cp.talk [.resp a] = some cp.talk := by
  cases a with
  | accepted => exact absurd rfl ha
  | ack | rejected => cases cp <;> rfl

theorem newOutputs_answer {s t : State} {e : Event} {a : Response} (he : eventFromHost e = true) (ha : a ≠ .accepted)
    (hout : t.outputs = s.outputs ++ [.resp a]) (hfsm : t.fsm = s.fsm) : NewOutputs s t e [.resp a] where
  appended := hout
  shape := .inl ⟨he, a, rfl⟩
  talk := by
    have hcp : t.controlPoint = s.controlPoint := by simp only [State.controlPoint, hfsm]
    rw [hcp]
    exact talk_after_answer _ ha

theorem Effect.newOutputs {s t : State} {e : Event} (h : Effect s e t) : ∃ new, NewOutputs s t e new := by
  cases h with
  | startRejected | writeRejected | writeAcknowledged | stopRecorded | dataWritten | limitWritten | cancelInIdle |
    cancelInSingle | cancelRecorded => exact ⟨_, newOutputs_answer rfl (by simp) rfl rfl⟩
  | startLimited hfsm | startFailed hfsm | startEmitted hfsm | writeStops hfsm | cancelEnds hfsm =>
    exact ⟨_, rfl, .inr (.inl ⟨rfl, _, _, rfl, by simp, by simp⟩), by simp only [State.controlPoint, hfsm]; rfl⟩
  | frameCompletes hfsm | frameStops hfsm | framePaces hfsm | sendFailed hfsm | gapStops hfsm | gapFails hfsm
  | gapEmits hfsm =>
    exact ⟨_, rfl, .inr (.inr ⟨rfl, _, rfl, by simp⟩), by simp only [State.controlPoint, hfsm]; rfl⟩

theorem exec_newOutputs {i : Instr} {s t : State} (h : exec i s = .next t) : ∃ new, NewOutputs s t (encode i) new :=
  (exec_next_iff.mp h).newOutputs

/-- The new outputs of a step: none for the reset event and with nothing to take, else those of the instruction, which
starts at the control point that the step starts at. -/
theorem step_outputs {s t : State} (h : step s = .next t) :
    ∃ new, t.outputs = s.outputs ++ new ∧
      (s.inbox.head? ≠ some .reset → Talk.after s.controlPoint.talk new = some t.controlPoint.talk) ∧
      (s.inbox.head? = some .reset → new = [] ∧ t.controlPoint = .idle) := by
  rcases step_next_cases h with ⟨hin, rfl⟩ | ⟨rest, hin, rfl⟩ | ⟨e, rest, i, hin, -, hexec⟩
  · exact ⟨[], (List.append_nil _).symm, fun _ => rfl, fun hr => by simp [hin] at hr⟩
  · exact ⟨[], (List.append_nil _).symm, fun hr => by simp [hin] at hr, fun _ => ⟨rfl, rfl⟩⟩
  · obtain ⟨new, hnew⟩ := exec_newOutputs hexec
    exact ⟨new, hnew.appended, fun _ => hnew.talk, fun hr => by simp [hin] at hr⟩

theorem State.Conversing.of_talk {s t : State} {new : List Output} (h : s.Conversing)
    (hout : t.outputs = s.outputs ++ new) (htalk : Talk.after s.controlPoint.talk new = some t.controlPoint.talk) :
    t.Conversing := by
  unfold State.Conversing
  rw [hout, h.after_append, htalk]

/-- Settles O40: every outcome's new outputs continue the conversation from the control point; a history that reached
that point goes on with them. -/
theorem everyStepKeepsTheConversation : Obligations.EveryStepKeepsTheConversation := by
  refine ⟨fun i s t h => ?_, fun s t h => step_outputs h, fun i s t hs h => ?_, fun s t hs hreset h => ?_⟩
  · obtain ⟨new, hnew⟩ := exec_newOutputs h
    exact ⟨new, hnew.appended, hnew.talk⟩
  · obtain ⟨new, hnew⟩ := exec_newOutputs h
    exact hs.of_talk hnew.appended hnew.talk
  · obtain ⟨new, hout, htalk, -⟩ := step_outputs h
    exact hs.of_talk hout (htalk hreset)

/-- Settles O41: the shape of every outcome's new outputs; a rejection stands only in an answer that is alone. -/
theorem outputsOfAStepHaveTheStatedShape : Obligations.OutputsOfAStepHaveTheStatedShape := by
  refine ⟨fun i s t h => ?_, fun s t h => ?_⟩
  · obtain ⟨new, hnew⟩ := exec_newOutputs h
    refine ⟨new, hnew.appended, ?_⟩
    rw [fromHost_eq_eventFromHost]
    rcases hnew.shape with ⟨he, a, rfl⟩ | ⟨he, a, o, rfl, ha, ho⟩ | ⟨he, o, rfl, ho⟩
    · exact ⟨fun _ => ⟨a, .inl rfl⟩, by simp [he], fun e hmem => by simpa [eq_comm] using hmem⟩
    · refine ⟨fun _ => ⟨a, .inr ⟨o, rfl, ho⟩⟩, by simp [he], fun e hmem => ?_⟩
      rcases List.mem_pair.mp hmem with h | h
      · exact absurd (Output.resp.inj h).symm (ha e)
      · exact absurd h.symm (ho _)
    · refine ⟨by simp [he], fun _ => ⟨o, rfl, ho⟩, fun e hmem => ?_⟩
      exact absurd (List.mem_singleton.mp hmem).symm (ho _)
  · obtain ⟨new, hout, -⟩ := step_outputs h
    exact ⟨new, hout.symm⟩

end Sys2Proof.Machine
end

section
/-! A frame from its size draw to its bytes (41_frame_synthesizer.md R131 to R139): the size a policy gives, the two
failures, and the frame of each packet type. -/

namespace Sys2Proof.Machine

/-! ### The size and the length field -/

theorem lengthField_eq_lengthBytes (order : ByteOrder) (n : Nat) : lengthField order n = lengthBytes order n := by
  cases order <;> simp [lengthField, lengthBytes, Nat.shiftRight_eq_div_pow, byte_ofNat_mod]

theorem header_eq (cfg : Config) (p : Plan) (n : Nat) :
    header cfg p n = p.dst.toList ++ p.src.toList ++ lengthBytes cfg.lengthByteOrder n := by
  rw [header, lengthField_eq_lengthBytes]

theorem frameSize_eq_iff {cfg : Config} {p : SizePolicy} {r r₁ : DrawSource} {l : Nat} :
    frameSize cfg p r = (l, r₁) ↔ nextSize cfg p r l r₁ := by
  cases p with
  | fixed x => simp [nextSize, eq_comm]
  | randomFromSet => cases h : r.sizes <;> simp [frameSize, nextSize, DrawSource.drawSize, h, eq_comm]

/-! ### Failure and success -/

section
variable {cfg : Config} {p : Plan} {r r₁ : DrawSource} {l : Nat}

theorem debugError_debug (h : p.ptype = .debug) : debugError p = some (.unimplementedOption .packetType .debug) := by
  simp [debugError, h]

theorem debugError_submode (h : p.ptype ≠ .debug) (hsub : p.debugSub = true) (hmode : p.mode = .single) :
    debugError p = some (.unimplementedOption .debugSubMode .single) := by
  simp [debugError, h, hsub, hmode]

/-- A failure takes the size draw and no other (R138). -/
theorem synthesize_of_debugError {err : Err} (hdebug : debugError p = some err) (hsize : nextSize cfg p.size r l r₁) :
    synthesize cfg p r = (.error err, r₁) := by
  simp [synthesize, hdebug, frameSize_eq_iff.mpr hsize]

theorem synthesize_of_nextSize (hdebug : debugError p = none) (hsize : nextSize cfg p.size r l r₁) :
    synthesize cfg p r = (.ok (p.dst.toList ++ p.src.toList ++ lengthBytes cfg.lengthByteOrder (l - 18) ++
      (payload p (l - 18) r₁).1), (payload p (l - 18) r₁).2) := by
  simp [synthesize, hdebug, frameSize_eq_iff.mpr hsize, payloadLength, lenAdjust, header_eq]

end

/-! ### The payload of each packet type -/

section
variable {p : Plan} (n : Nat) (r : DrawSource)

theorem payload_eq_incrementBytes (h : p.ptype = .byteIncrement) : payload p n r = (incrementBytes n, r) := by
  simp [payload_byteIncrement h, incrementBytes, byte_ofNat_mod]

theorem payload_random (h : p.ptype = .random) : payload p n r = r.drawBytes n := by
  simp only [payload, h]

theorem drawsBytes_drawBytes : drawsBytes r n (r.drawBytes n).1 (r.drawBytes n).2 :=
  ⟨DrawSource.drawBytes_length n r, fun h => by rw [DrawSource.drawBytes_supplied n r h]; exact ⟨rfl, rfl⟩⟩

end

/-! ### The statements -/

theorem frameHeader_length (p : Plan) (order : ByteOrder) (n : Nat) :
    (p.dst.toList ++ p.src.toList ++ lengthBytes order n).length = 14 := by
  cases order <;> rfl

/-- Settles O15: the frame is the header and the payload of its size, taken apart at offset 14. -/
theorem synthesizedFramesHoldTheStatedBytes : Obligations.SynthesizedFramesHoldTheStatedBytes := by
  intro cfg p r r₁ l hptype hsub hsize
  have hlen : (payload p (l - 18) r₁).1.length = l - 18 := payload_length hptype (l - 18) r₁
  have hhead := frameHeader_length p cfg.lengthByteOrder (l - 18)
  refine ⟨_, _, synthesize_of_nextSize (debugError_eq_none_iff.mpr ⟨hptype, hsub⟩) hsize, ?_⟩
  generalize p.dst.toList ++ p.src.toList ++ lengthBytes cfg.lengthByteOrder (l - 18) = head at hhead ⊢
  have hoctet : ∀ i, (head ++ (payload p (l - 18) r₁).1)[14 + i]? = (payload p (l - 18) r₁).1[i]? := fun i => by
    rw [← hhead, List.getElem?_append_right (Nat.le_add_right _ _), Nat.add_sub_cancel_left]
  refine ⟨by rw [List.length_append, hhead, hlen], List.take_left' hhead, fun h => ?_, fun h => ?_, fun h => ?_⟩
  · exact ⟨by rw [payload_eq_incrementBytes _ _ h],
      fun i hi => (hoctet i).trans (payload_byteIncrement_getElem? h hi r₁)⟩
  · exact ⟨by rw [payload_predefined h], fun i hi => (hoctet i).trans (payload_predefined_getElem? h hi r₁)⟩
  · rw [List.drop_left' hhead, payload_random _ _ h]
    exact drawsBytes_drawBytes _ _

/-- Settles O17: each option fails by its name, with the draws that the size left. -/
theorem unimplementedPlansFailAfterTheSizeDraw : Obligations.UnimplementedPlansFailAfterTheSizeDraw := by
  intro cfg p r r₁ l hsize
  exact ⟨fun h => synthesize_of_debugError (debugError_debug h) hsize,
    fun h hsub hmode => synthesize_of_debugError (debugError_submode h hsub hmode) hsize⟩

/-- Settles O19: the seven sizes of the table, each by evaluation. -/
theorem lengthFieldHoldsThePayloadLength : Obligations.LengthFieldHoldsThePayloadLength := by
  intro l hl
  simp only [sizeTable, List.mem_cons, List.not_mem_nil, or_false] at hl
  rcases hl with rfl | rfl | rfl | rfl | rfl | rfl | rfl <;>
    exact ⟨by decide, _, _, rfl, rfl, by decide⟩

end Sys2Proof.Machine
end

section
/-! The start rows in Idle, under every value of the parameters (42_generator_fsm.md R155): each row's value resolves to
the plan of its operands, or is refused for its unassigned bits, and the outcome follows from the plan. -/

namespace Sys2Proof.Machine

/-! ### What a start row's value resolves to -/

/-- Under Refuse the unassigned bits are the error (40_register_decoder.md R109). -/
theorem resolvePlan_startWord_refused {s : State} {q u : Word} (c : BitVec 3) (g : BitVec 2) (hq : StartPattern q)
    (hu : within unassignedMask u = true) (hpolicy : s.cfg.unassignedPolicy = .refuse) (hne : u ≠ 0) :
    resolvePlan s.cfg (startWord q c g u) s.data = .error (.unimplementedOption .unassignedCtrlBits (.bits u)) := by
  have hbits := unassigned_startWord q u c g hu hq.unassigned
  have hreserved : reservedBit (startWord q c g u) = false := (reservedBit_startWord q u c g hu).trans hq.reserved
  have hrun : shouldRun (optionsOf s.cfg (startWord q c g u)) = true := by
    simp only [shouldRun, optionsOf, enableBit_startWord q u c g hu, startBit_startWord q u c g hu, hq.enable, hq.start]
    rfl
  have hrefuse : refusesUnassigned s.cfg (optionsOf s.cfg (startWord q c g u)) = true := by
    simp only [refusesUnassigned, optionsOf, hbits, hpolicy]
    simpa using hne
  rcases resolvePlan_cases s.cfg (startWord q c g u) s.data with ⟨h, -⟩ | ⟨-, h, -⟩ | ⟨-, -, -, h⟩ | ⟨-, -, h, -⟩
  · cases hreserved.symm.trans h
  · cases hrun.symm.trans h
  · rw [h, hbits]
  · cases hrefuse.symm.trans h

section
variable {s : State} {c : BitVec 3} {g : BitVec 2} {u : Word} {w : StartRow}

/-- The plan of a start row, its packet type as PT_MAP gives it. -/
def StartRow.plan (w : StartRow) (s : State) (c : BitVec 3) (g : BitVec 2) : Plan :=
  startPlan s c g (s.cfg.ptMap.get w.code) w.mode (s.cfg.debugSubmode.contains w.value)

theorem startRows_resolvePlan (hw : w ∈ startRows c g u) (hu : within unassignedMask u = true)
    (hpolicy : s.cfg.unassignedPolicy = .ignore ∨ u = 0) :
    resolvePlan s.cfg w.value s.data = .ok (w.plan s c g) := by
  obtain ⟨-, q, hq, hvalue, hmode, hcode⟩ := startRows_spec hw
  rw [StartRow.plan, hvalue, ← hmode, ← hcode, resolvePlan_startWord c g hq hu hpolicy]

/-- A start row does what the write of its value does. -/
theorem startRows_exec (hw : w ∈ startRows c g u) {t : State} (h : Effect s (.wrCtrl w.value) t) :
    exec w.instr s = .next t :=
  ((startRows_spec hw).1 s).trans h.perform_eq

/-! ### The outcomes of a start row -/

theorem exec_startRow_refused (hw : w ∈ startRows c g u) (hidle : s.fsm = .idle) (hu : within unassignedMask u = true)
    (hpolicy : s.cfg.unassignedPolicy = .refuse) (hne : u ≠ 0) :
    exec w.instr s =
      .next (answeredWith s w.value (.rejected (.unimplementedOption .unassignedCtrlBits (.bits u)))) := by
  obtain ⟨-, q, hq, hvalue, -, -⟩ := startRows_spec hw
  exact startRows_exec hw (.startRejected hidle (hvalue ▸ resolvePlan_startWord_refused c g hq hu hpolicy hne))

theorem exec_startRow_limited (hw : w ∈ startRows c g u) (hidle : s.fsm = .idle) (hu : within unassignedMask u = true)
    (hpolicy : s.cfg.unassignedPolicy = .ignore ∨ u = 0) (hmode : w.mode = .continuous) (hlimit : s.limit = some 0) :
    exec w.instr s = .next (endedAtStart s w.value .limitReached s.rng) :=
  startRows_exec hw (.startLimited hidle (startRows_resolvePlan hw hu hpolicy) hmode hlimit)

variable {l : Nat} {r : DrawSource}

theorem exec_startRow_failed (hw : w ∈ startRows c g u) (hidle : s.fsm = .idle) (hu : within unassignedMask u = true)
    (hpolicy : s.cfg.unassignedPolicy = .ignore ∨ u = 0) (hgo : w.mode = .continuous → s.limit ≠ some 0)
    (hsize : nextSize s.cfg (tableSize c) s.rng l r) {err : Err} (hdebug : debugError (w.plan s c g) = some err) :
    exec w.instr s = .next (endedAtStart s w.value (.failed err) r) :=
  startRows_exec hw
    (.startFailed hidle (startRows_resolvePlan hw hu hpolicy) hgo (synthesize_of_debugError hdebug hsize))

/-- The frame of an accepted start: the header of REG[DATA] and of the size, and the plan's payload. -/
theorem exec_startRow_emits (hw : w ∈ startRows c g u) (hidle : s.fsm = .idle) (hu : within unassignedMask u = true)
    (hpolicy : s.cfg.unassignedPolicy = .ignore ∨ u = 0) (hgo : w.mode = .continuous → s.limit ≠ some 0)
    (hsub : w.mode = .single → w.value ∉ s.cfg.debugSubmode) (hsize : nextSize s.cfg (tableSize c) s.rng l r)
    {t : PacketType} (ht : s.cfg.ptMap.get w.code = t) (hne : t ≠ .debug) {p : Plan}
    (hp : p = startPlan s c g t w.mode (s.cfg.debugSubmode.contains w.value)) :
    exec w.instr s = .next (startedWith s w.value p
      (headerBytes s.cfg.lengthByteOrder (s.data.extractLsb' 12 4) (s.data.extractLsb' 8 4) (l - 18) ++
        (payload p (l - 18) r).1) (payload p (l - 18) r).2) := by
  have hplan : w.plan s c g = p := by rw [hp, StartRow.plan, ht]
  have hdebug : debugError p = none := by
    refine debugError_eq_none_iff.mpr ⟨by rwa [hp], fun ⟨hselected, hsingle⟩ => ?_⟩
    subst hp
    exact hsub hsingle (List.contains_iff_mem.mp hselected)
  have hsyn := synthesize_of_nextSize hdebug (show nextSize s.cfg p.size s.rng l r by rwa [hp])
  have heffect := Effect.startEmitted hidle (hplan ▸ startRows_resolvePlan hw hu hpolicy) (by rwa [hp]) hsyn
  subst hp
  exact startRows_exec hw heffect

end

/-! ### The statements -/

/-- Settles O22: the two pattern payloads are what the packet type gives, with no draw taken. -/
theorem incrementAndPredefinedStartsEmitTheirFrame : Obligations.IncrementAndPredefinedStartsEmitTheirFrame := by
  intro s c g u l r hidle hu hpolicy hsize w hw hgo hsub
  refine ⟨fun ht => ?_, fun ht => ?_⟩
  · have h := exec_startRow_emits hw hidle hu hpolicy hgo hsub hsize ht (by simp) rfl
    rwa [payload_eq_incrementBytes _ _ rfl] at h
  · have h := exec_startRow_emits hw hidle hu hpolicy hgo hsub hsize ht (by simp) rfl
    rwa [payload_predefined rfl] at h

/-- Settles O23: the Random payload is the bytes drawn. -/
theorem randomStartsEmitTheDrawnBytes : Obligations.RandomStartsEmitTheDrawnBytes := by
  intro s c g u l r hidle hu hpolicy hsize w hw hgo hsub ht
  have h := exec_startRow_emits hw hidle hu hpolicy hgo hsub hsize ht (by simp) rfl
  rw [payload_random _ _ rfl] at h
  exact ⟨_, _, drawsBytes_drawBytes _ _, h⟩

/-- Settles O24: the plan's packet type is the option that fails. -/
theorem debugStartsFailBeforeAnyFrame : Obligations.DebugStartsFailBeforeAnyFrame := by
  intro s c g u l r hidle hu hpolicy hsize w hw hgo ht
  exact exec_startRow_failed hw hidle hu hpolicy hgo hsize (debugError_debug ht)

/-- Settles O25: each of the four continuous rows ends at its first stop check. -/
theorem limitZeroEndsAContinuousStartAtOnce : Obligations.LimitZeroEndsAContinuousStartAtOnce := by
  intro s c g u hidle hu hpolicy hlimit
  have hrow : ∀ k : Fin 8, (startRows c g u)[k].mode = .continuous →
      exec (startRows c g u)[k].instr s = .next (endedAtStart s (startRows c g u)[k].value .limitReached s.rng) :=
    fun k hmode => exec_startRow_limited (List.getElem_mem _) hidle hu hpolicy hmode hlimit
  exact ⟨hrow 0 rfl, hrow 1 rfl, hrow 2 rfl, hrow 3 rfl⟩

/-- Settles O26: each start row's unassigned bits are the error; the Debug row stands once for each mode. -/
theorem refusePolicyRejectsUnassignedBits : Obligations.RefusePolicyRejectsUnassignedBits := by
  rintro s c g m u hidle hu hpolicy hne a rfl
  have hrow : ∀ k : Fin 8, exec (startRows c g u)[k].instr s = .next (answeredWith s (startRows c g u)[k].value
      (.rejected (.unimplementedOption .unassignedCtrlBits (.bits u)))) :=
    fun k => exec_startRow_refused (List.getElem_mem _) hidle hu hpolicy hne
  refine ⟨?_, hrow 0, hrow 1, hrow 2, hrow 4, hrow 5, hrow 6⟩
  cases m with
  | continuous => exact hrow 3
  | single => exact hrow 7

/-- Settles O27: the sub-mode is the option that fails where the packet type does not. -/
theorem debugSubmodeStartsFailBeforeAnyFrame : Obligations.DebugSubmodeStartsFailBeforeAnyFrame := by
  intro s c g u l r hidle hu hpolicy hsize w hw hmode hselected ht
  have hgo : w.mode = .continuous → s.limit ≠ some 0 := fun h => by cases hmode.symm.trans h
  exact exec_startRow_failed hw hidle hu hpolicy hgo hsize
    (debugError_submode ht (List.contains_iff_mem.mpr hselected) hmode)

end Sys2Proof.Machine
end

section
/-! The CTRL decoder and plan resolution on every value (40_register_decoder.md R103, R106, R109, R110), each field by
its slice of the value's number. -/

namespace Sys2Proof.Machine

/-! ### Fields of a decoded value -/

theorem reservedBit_eq_true_iff {v : Word} : reservedBit v = true ↔ v.toNat / 128 % 2 = 1 := by
  simp [reservedBit_eq]

theorem reservedBit_eq_false_iff {v : Word} : reservedBit v = false ↔ v.toNat / 128 % 2 = 0 := by
  simp [reservedBit_eq]

theorem sizeCode_toNat (v : Word) : (sizeCode v).toNat = v.toNat / 16 % 8 := bitField_toNat v 4 3

theorem packetTypeCode_toNat (v : Word) : (packetTypeCode v).toNat = v.toNat / 256 % 4 := bitField_toNat v 8 2

theorem ipgCode_toNat (v : Word) : (ipgCode v).toNat = v.toNat / 1024 % 4 := bitField_toNat v 10 2

/-- Codes below 7 are places of SIZE_TABLE. -/
theorem sizeTable_getElem?_of_lt {c : Nat} (h : c < 7) : ∃ l, sizeTable[c]? = some l :=
  ⟨_, List.getElem?_eq_getElem (l := sizeTable) h⟩

/-- Both run bits are set exactly when the low two bits are 3. -/
theorem shouldRun_optionsOf (cfg : Config) (v : Word) : shouldRun (optionsOf cfg v) = decide (v.toNat % 4 = 3) := by
  simp only [shouldRun, optionsOf, enableBit_eq, startBit_eq, ← Bool.decide_and]
  exact decide_eq_decide.mpr (by omega)

theorem refusesUnassigned_optionsOf {cfg : Config} {v : Word} :
    refusesUnassigned cfg (optionsOf cfg v) = true ↔ cfg.unassignedPolicy = .refuse ∧ v &&& 0xD00C ≠ 0 := by
  simp [refusesUnassigned, optionsOf, unassignedMask]

/-! ### The statements -/

/-- Settles O9: bit 7 decides, and each field is the slice that its accessor reads. -/
theorem ctrlDecodingReadsTheStatedFields : Obligations.CtrlDecodingReadsTheStatedFields := by
  intro cfg v
  refine ⟨fun h7 => decodeCtrl_reserved (reservedBit_eq_true_iff.mpr h7), fun h7 => ?_⟩
  have hsize := sizeCode_toNat v
  refine ⟨optionsOf cfg v, decodeCtrl_ok (reservedBit_eq_false_iff.mpr h7), ?_, ?_, fun hlt => ?_, fun hlast => ?_,
    ?_, ?_, modeOf_eq_single_iff v, rfl, List.contains_iff_mem⟩
  · simp [optionsOf, enableBit_eq]
  · simp [optionsOf, startBit_eq]
  · obtain ⟨l, hl⟩ := sizeTable_getElem?_of_lt hlt
    exact ⟨l, hl, sizePolicy_eq_fixed (hsize ▸ hl)⟩
  · exact sizePolicy_eq_randomFromSet (by rw [hsize, hlast]; rfl)
  · rw [← packetTypeCode_toNat]
    exact Map4.toList_getElem? cfg.ptMap _
  · rw [← ipgCode_toNat]
    exact Map4.toList_getElem? cfg.ipgMap _

/-- Settles O13: the four ways in which resolution ends, told apart by bit 7, the run bits and the policy. -/
theorem planResolutionFollowsTheStatedPrecedence : Obligations.PlanResolutionFollowsTheStatedPrecedence := by
  intro cfg vc vd
  have hreserved := @reservedBit_eq_true_iff vc
  have hclear := @reservedBit_eq_false_iff vc
  have hrun := shouldRun_optionsOf cfg vc
  have hrefuses := @refusesUnassigned_optionsOf cfg vc
  rcases resolvePlan_cases cfg vc vd with ⟨h7, h⟩ | ⟨h7, hno, h⟩ | ⟨h7, hgo, href, h⟩ | ⟨h7, hgo, href, h⟩
  · have h7 := hreserved.mp h7
    exact ⟨fun _ => h, by omega, by omega, by omega⟩
  · have h7 := hclear.mp h7
    have hno : vc.toNat % 4 ≠ 3 := by simpa [hrun] using hno
    exact ⟨by omega, fun _ _ => by rw [h, enableBit_eq, startBit_eq], by omega, by omega⟩
  · have h7 := hclear.mp h7
    have hgo : vc.toNat % 4 = 3 := by simpa [hrun] using hgo
    obtain ⟨hpolicy, hbits⟩ := hrefuses.mp href
    exact ⟨by omega, by omega, fun _ _ _ _ => h, fun _ _ hpass => by simp_all⟩
  · have hgo' : vc.toNat % 4 = 3 := by simpa [hrun] using hgo
    have h7' := hclear.mp h7
    refine ⟨by omega, by omega, fun _ _ hpolicy hbits => ?_, fun _ _ _ => ⟨_, decodeCtrl_ok h7, h⟩⟩
    cases href.symm.trans (hrefuses.mpr ⟨hpolicy, hbits⟩)

/-- Settles O11: nibbles and bytes are slices of the number, and byte 1 is the slice that nibbles 3 and 2 share. -/
theorem nibblesAndBytesAreTheStatedSlices : Obligations.NibblesAndBytesAreTheStatedSlices := by
  refine ⟨nibble_toNat, byte_toNat, fun v => ?_⟩
  have hbyte : (byte v 1).toNat = v.toNat / 256 % 256 := byte_toNat v 1
  have hhigh : (nibble v 3).toNat = v.toNat / 4096 % 16 := nibble_toNat v 3
  have hlow : (nibble v 2).toNat = v.toNat / 256 % 16 := nibble_toNat v 2
  omega

/-- Settles O14: one clause of `ctrlField` for each name. -/
theorem namedFieldsReadOrFailByName : Obligations.NamedFieldsReadOrFailByName :=
  fun _ => ⟨rfl, rfl, rfl, rfl, rfl, rfl, rfl, rfl⟩

/-- Settles O53: the code of each error, and that only code 5 is of the runtime class. -/
theorem errorCodesKeepTheTwoClassesApart : Obligations.ErrorCodesKeepTheTwoClassesApart := by
  refine ⟨fun _ _ => rfl, fun _ => rfl, fun _ _ => rfl, fun _ _ => rfl, fun _ => rfl, fun e => ?_⟩
  cases e with
  | transportError x => exact ⟨fun _ => ⟨x, rfl⟩, fun _ => rfl⟩
  | literalParseError | reservedBitSet | notEnabledOrStarted | unimplementedOption =>
    exact ⟨nofun, fun ⟨_, h⟩ => by cases h⟩

/-- Settles O52: one clause of `ScriptLine.expand` for each pseudo-operation. -/
theorem pseudoOperationsExpandAsStated : Obligations.PseudoOperationsExpandAsStated :=
  fun _ _ => ⟨rfl, rfl, rfl⟩

end Sys2Proof.Machine
end

section
/-! The rows of WRCTRL, the other host operations and the environment's events, each as its outcome
(42_generator_fsm.md R155 to R164). -/

namespace Sys2Proof.Machine

theorem exec_of_effect {i : Instr} {e : Event} {s t : State} (he : encode i = e) (h : Effect s e t) :
    exec i s = .next t :=
  exec_next_iff.mpr (he ▸ h)

/-! ### WRCTRL with bit 7 set -/

theorem resolvePlan_reserved {cfg : Config} {v : Word} (d : Word) (h : reservedBit v = true) :
    resolvePlan cfg v d = .error (.reservedBitSet (v &&& 0xFF7F)) := by
  simp only [resolvePlan, decodeCtrl_reserved h]

theorem effect_reservedBit (s : State) {v : Word} (h : reservedBit v = true) :
    Effect s (.wrCtrl v) (answeredWith s v (.rejected (.reservedBitSet (v &&& 0xFF7F)))) := by
  rcases hf : s.fsm with _ | ⟨ph, p⟩
  · exact .startRejected hf (resolvePlan_reserved s.data h)
  · exact .writeRejected hf h

/-- Settles O20: bit 7 is a fixed bit of both rows. -/
theorem reservedBitWritesAreRejectedInEveryState : Obligations.ReservedBitWritesAreRejectedInEveryState := by
  refine fun s => ⟨fun other _ => ?_, fun e t other _ => ?_⟩
  · exact exec_of_effect rfl (effect_reservedBit s (reservedBit_or_left _ other rfl))
  · have h7 : (0x0080 ||| runBits e t : Word).getLsbD 7 = true := reservedBit_or_left 0x0080 (runBits e t) rfl
    exact exec_of_effect rfl (effect_reservedBit s (reservedBit_or_left _ other h7))

/-! ### WRCTRL without both run bits, in Idle -/

theorem resolvePlan_notrun {cfg : Config} {v : Word} (d : Word) (h7 : reservedBit v = false)
    (hno : shouldRun (optionsOf cfg v) = false) :
    resolvePlan cfg v d = .error (.notEnabledOrStarted (enableBit v) (startBit v)) := by
  simp only [resolvePlan, decodeCtrl_ok h7, hno]
  rfl

/-- A not-a-start value: fixed bits `q` with bit 7 and one run bit clear, and the other places. -/
theorem effect_notrun {s : State} {v q other : Word} (hv : v = q ||| other) (hidle : s.fsm = .idle)
    (hother : within notrunOther other = true) (h7 : q.getLsbD 7 = false)
    (hno : (q.getLsbD 0 && q.getLsbD 1) = false) :
    Effect s (.wrCtrl v) (answeredWith s v (.rejected (.notEnabledOrStarted (q.getLsbD 0) (q.getLsbD 1)))) := by
  subst hv
  rw [← enableBit_or q other hother, ← startBit_or q other hother] at hno ⊢
  exact .startRejected hidle (resolvePlan_notrun s.data ((reservedBit_or q other hother).trans h7) hno)

/-- In Running the only rejection is of bit 7. -/
theorem Effect.rejection_in_running {s t : State} {e : Event} (h : Effect s e t) {ph : Phase} {p : Plan}
    (hrun : s.fsm = .running ph p) {err : Err} (hout : t.outputs = s.outputs ++ [.resp (.rejected err)]) :
    ∃ v, err = .reservedBitSet v := by
  cases h with
  | startRejected hidle | startLimited hidle | startFailed hidle | startEmitted hidle => cases hrun.symm.trans hidle
  | writeRejected =>
    cases List.append_cancel_left hout
    exact ⟨_, rfl⟩
  | _ => cases List.append_cancel_left (show s.outputs ++ _ = s.outputs ++ _ from hout)

theorem zero_or_word (w : Word) : 0x0000 ||| w = w := by simp

/-- Settles O21: in Idle the run bits are those of the row; in Running a rejection names bit 7. -/
theorem writesWithoutBothBitsAreRejectedOnlyInIdle : Obligations.WritesWithoutBothBitsAreRejectedOnlyInIdle := by
  refine ⟨fun s other hidle hother => ⟨?_, ?_, ?_⟩, fun i s t ph p a b hrun hexec hout => ?_⟩
  · exact exec_of_effect (congrArg Event.wrCtrl (zero_or_word other))
      (effect_notrun (zero_or_word other).symm hidle hother rfl rfl)
  · exact exec_of_effect rfl (effect_notrun rfl hidle hother rfl rfl)
  · exact exec_of_effect rfl (effect_notrun rfl hidle hother rfl rfl)
  · obtain ⟨v, hv⟩ := (effect_of_exec hexec).rejection_in_running hrun hout
    cases hv

/-! ### WRCTRL in Running -/

/-- The stop test reads the two run bits only. -/
theorem stopTest_or (rule : StopRule) (cfg : Config) (q : Word) {other : Word} (hother : within notrunOther other = true) :
    stopTest rule (optionsOf cfg (q ||| other)) = stopTest rule (optionsOf cfg q) := by
  have he : enableBit (q ||| other) = enableBit q := enableBit_or q other hother
  have hs : startBit (q ||| other) = startBit q := startBit_or q other hother
  cases rule <;> simp only [stopTest, optionsOf, he, hs]

section
variable {s : State} {p : Plan} {v q other : Word}

theorem effect_stopValue_gap (hv : v = q ||| other) (hother : within notrunOther other = true)
    (h7 : q.getLsbD 7 = false) (hgap : s.fsm = .running .gap p) (hmode : p.mode = .continuous)
    (hstop : stopTest s.cfg.stopRule (optionsOf s.cfg q) = true) :
    Effect s (.wrCtrl v)
      { s with ctrl := v, fsm := .idle, outputs := s.outputs ++ [.resp .ack, .runEnd .stopped s.count] } := by
  subst hv
  exact .writeStops hgap ((reservedBit_or q other hother).trans h7) hmode ((stopTest_or _ _ q hother).trans hstop)

theorem effect_stopValue_awaitSend (hv : v = q ||| other) (hother : within notrunOther other = true)
    (h7 : q.getLsbD 7 = false) (hsend : s.fsm = .running .awaitSend p) (hmode : p.mode = .continuous)
    (hstop : stopTest s.cfg.stopRule (optionsOf s.cfg q) = true) :
    Effect s (.wrCtrl v) { s with ctrl := v, stopReq := true, outputs := s.outputs ++ [.resp .ack] } := by
  subst hv
  exact .stopRecorded hsend ((reservedBit_or q other hother).trans h7) hmode ((stopTest_or _ _ q hother).trans hstop)

theorem effect_otherValue {ph : Phase} (hv : v = q ||| other) (hother : within notrunOther other = true)
    (h7 : q.getLsbD 7 = false) (hrun : s.fsm = .running ph p)
    (hgo : p.mode = .single ∨ stopTest s.cfg.stopRule (optionsOf s.cfg q) = false) :
    Effect s (.wrCtrl v) (answeredWith s v .ack) := by
  subst hv
  refine .writeAcknowledged hrun ((reservedBit_or q other hother).trans h7) fun ⟨hmode, hstop⟩ => ?_
  rcases hgo with hsingle | hno
  · cases hmode.symm.trans hsingle
  · cases hno.symm.trans ((stopTest_or _ _ q hother).symm.trans hstop)

end

/-- A value without both run bits stops under either rule. -/
theorem stopTest_neither (rule : StopRule) (cfg : Config) : stopTest rule (optionsOf cfg 0x0000) = true := by
  cases rule <;> rfl

/-- A value with both run bits stops under neither rule. -/
theorem stopTest_both (rule : StopRule) (cfg : Config) : stopTest rule (optionsOf cfg 0x0003) = false := by
  cases rule <;> rfl

/-- Settles O28: the stop rule takes each of the three rows for a stop value. -/
theorem stopValuesStopAContinuousRun : Obligations.StopValuesStopAContinuousRun := by
  intro s p other hmode hother
  have hzero := zero_or_word other
  refine ⟨fun hgap => ⟨?_, fun hrule => ⟨?_, ?_⟩⟩, fun hsend => ⟨?_, fun hrule => ⟨?_, ?_⟩⟩⟩
  · exact exec_of_effect (congrArg Event.wrCtrl hzero)
      (effect_stopValue_gap hzero.symm hother rfl hgap hmode (stopTest_neither _ _))
  · exact exec_of_effect rfl (effect_stopValue_gap rfl hother rfl hgap hmode (hrule ▸ rfl))
  · exact exec_of_effect rfl (effect_stopValue_gap rfl hother rfl hgap hmode (hrule ▸ rfl))
  · exact exec_of_effect (congrArg Event.wrCtrl hzero)
      (effect_stopValue_awaitSend hzero.symm hother rfl hsend hmode (stopTest_neither _ _))
  · exact exec_of_effect rfl (effect_stopValue_awaitSend rfl hother rfl hsend hmode (hrule ▸ rfl))
  · exact exec_of_effect rfl (effect_stopValue_awaitSend rfl hother rfl hsend hmode (hrule ▸ rfl))

/-- Settles O29: single mode, or the stop rule, takes the row for no stop value. -/
theorem otherValuesInRunningAreOnlyAcknowledged : Obligations.OtherValuesInRunningAreOnlyAcknowledged := by
  intro s ph p other hrun hother
  refine ⟨?_, fun hgo => ⟨?_, ?_⟩, fun hmode => ?_⟩
  · exact exec_of_effect rfl (effect_otherValue rfl hother rfl hrun (.inr (stopTest_both _ _)))
  · exact exec_of_effect rfl (effect_otherValue rfl hother rfl hrun (hgo.imp_right fun hrule => by rw [hrule]; rfl))
  · exact exec_of_effect rfl (effect_otherValue rfl hother rfl hrun (hgo.imp_right fun hrule => by rw [hrule]; rfl))
  · exact exec_of_effect (congrArg Event.wrCtrl (zero_or_word other))
      (effect_otherValue (zero_or_word other).symm hother rfl hrun (.inl hmode))

/-! ### WRDATA, SETLIMIT and CANCEL -/

/-- Settles O30: the value's three fields are the operands, so its number is made of them and so are the addresses. -/
theorem writeDataLatchesItsThreeFields : Obligations.WriteDataLatchesItsThreeFields := by
  intro s dst src fill
  obtain ⟨hdst, hsrc, hfill⟩ := fields_of_dataWord dst src fill
  refine ⟨dataWord dst src fill, ?_, exec_of_effect rfl .dataWritten, ?_⟩
  · have hd := congrArg BitVec.toNat hdst
    have hs := congrArg BitVec.toNat hsrc
    have hf := congrArg BitVec.toNat hfill
    simp only [dstNibble, srcNibble, fillByte, bitField_toNat] at hd hs hf
    omega
  · have hhigh : nibble (dataWord dst src fill) 3 = dst := hdst
    have hlow : nibble (dataWord dst src fill) 2 = src := hsrc
    have hbyte : byte (dataWord dst src fill) 0 = fill := hfill
    rw [decodeData, hhigh, hlow, hbyte, macOf_eq, macOf_eq]

/-- Settles O31: SETLIMIT has one outcome, whatever the control point. -/
theorem setLimitLatchesTheLimitOfLaterRuns : Obligations.SetLimitLatchesTheLimitOfLaterRuns :=
  fun _ _ => exec_of_effect rfl .limitWritten

/-- Settles O32: one outcome for each control point and mode. -/
theorem cancelActsByControlPoint : Obligations.CancelActsByControlPoint :=
  ⟨fun _ hidle => exec_of_effect rfl (.cancelInIdle hidle),
    fun _ _ hsend hmode => exec_of_effect rfl (.cancelRecorded hsend hmode),
    fun _ _ hsend hmode => exec_of_effect rfl (.cancelInSingle hsend hmode),
    fun _ _ hgap => exec_of_effect rfl (.cancelEnds hgap)⟩

/-! ### The stop check, in its precedence -/

section
variable {s : State}

theorem State.checkStop_of_cancel (h : s.cancelReq = true) : s.checkStop = some .cancelled := by
  simp [State.checkStop, h]

theorem State.checkStop_of_stop (hc : s.cancelReq = false) (h : s.stopReq = true) : s.checkStop = some .stopped := by
  simp [State.checkStop, hc, h]

theorem State.checkStop_of_limit (hc : s.cancelReq = false) (hs : s.stopReq = false)
    (h : ∃ m, s.runLimit = some m ∧ m ≤ s.count) : s.checkStop = some .limitReached := by
  simp [State.checkStop, hc, hs, limitReached_eq_true_iff.mpr h]

theorem State.checkStop_of_none (hc : s.cancelReq = false) (hs : s.stopReq = false)
    (h : ∀ m, s.runLimit = some m → s.count < m) : s.checkStop = none :=
  State.checkStop_eq_none_iff.mpr ⟨hc, hs, limitReached_eq_false_iff.mpr h⟩

theorem State.iterationStop_of_continuous {m : Mode} (h : m = .continuous) : s.iterationStop m = s.checkStop := by
  rw [h, State.iterationStop_continuous]

end

/-! ### The transport's answers -/

theorem countNext_eq {cfg : Config} {c n : Nat} (hnone : cfg.countWidth = none → n = c + 1)
    (hsome : ∀ w, cfg.countWidth = some w → n = (c + 1) % 2 ^ w) : n = countNext cfg c := by
  unfold countNext
  cases h : cfg.countWidth with
  | none => exact hnone h
  | some w => exact hsome w h

/-- Settles O33: the stop check at the new count decides between the outcomes. -/
theorem sendDoneOkCountsThenEndsOrPaces : Obligations.SendDoneOkCountsThenEndsOrPaces := by
  intro s p n hsend hnone hsome
  rw [countNext_eq hnone hsome]
  refine ⟨fun hmode => exec_of_effect rfl (.frameCompletes hsend hmode),
    fun hmode => ⟨fun hc => ?_, fun hc hs => ?_, fun hc hs hl => ?_, fun hc hs hl => ?_⟩⟩
  · exact exec_of_effect rfl (.frameStops hsend hmode (State.checkStop_of_cancel hc))
  · exact exec_of_effect rfl (.frameStops hsend hmode (State.checkStop_of_stop hc hs))
  · exact exec_of_effect rfl (.frameStops hsend hmode (State.checkStop_of_limit hc hs hl))
  · exact exec_of_effect rfl (.framePaces hsend hmode (State.checkStop_of_none hc hs hl))

/-- The new count stands in every outcome of an accepted frame. -/
theorem Effect.count_of_sendDoneOk {s t : State} (h : Effect s .sendDoneOk t) : t.count = countNext s.cfg s.count := by
  cases h <;> rfl

/-- Settles O34: the new count of a counter of `w` bits. -/
theorem aGivenCountWidthWraps : Obligations.AGivenCountWidthWraps := by
  intro s p w hsend hwidth
  have heffect : Effect s .sendDoneOk (s.frameAccepted p) := effect_frameAccepted hsend
  refine ⟨_, exec_of_effect rfl heffect, heffect.count_of_sendDoneOk.trans ?_⟩
  simp only [countNext, hwidth]

/-- Settles O35: SENDDONE(Err) has one outcome, with the count as it stands. -/
theorem sendDoneErrAbortsTheRun : Obligations.SendDoneErrAbortsTheRun :=
  fun _ _ _ hsend => exec_of_effect rfl (.sendFailed hsend)

/-! ### The end of the pacing delay -/

/-- Settles O36: the stop check decides between the end and the next frame, whose payload is its packet type's. -/
theorem gapElapsedChecksThenEmitsTheNextFrame : Obligations.GapElapsedChecksThenEmitsTheNextFrame := by
  intro s p hgap hmode
  have hcheck : s.iterationStop p.mode = s.checkStop := State.iterationStop_of_continuous hmode
  refine ⟨fun hc => ?_, fun hc hs => ?_, fun hc hs hl => ?_, fun l r hc hs hl hptype hsize => ?_⟩
  · exact exec_of_effect rfl (.gapStops hgap (hcheck.trans (State.checkStop_of_cancel hc)))
  · exact exec_of_effect rfl (.gapStops hgap (hcheck.trans (State.checkStop_of_stop hc hs)))
  · exact exec_of_effect rfl (.gapStops hgap (hcheck.trans (State.checkStop_of_limit hc hs hl)))
  · have hdebug : debugError p = none := debugError_eq_none_iff.mpr ⟨hptype, by simp [hmode]⟩
    refine ⟨(payload p (l - 18) r).1, (payload p (l - 18) r).2, exec_of_effect rfl (.gapEmits hgap
      (hcheck.trans (State.checkStop_of_none hc hs hl)) (synthesize_of_nextSize hdebug hsize)), ?_, ?_, ?_⟩
    · exact fun h => by rw [payload_eq_incrementBytes _ _ h]; exact ⟨rfl, rfl⟩
    · exact fun h => by rw [payload_predefined h]; exact ⟨rfl, rfl⟩
    · exact fun h => by rw [payload_random _ _ h]; exact drawsBytes_drawBytes _ _

/-! ### Admission -/

theorem eventRefusal_cases (i : Instr) :
    (i = .gapElapsed ∧ eventRefusal (encode i) = .gapElapsedNotAdmitted) ∨
    (i ≠ .gapElapsed ∧ eventRefusal (encode i) = .sendDoneNotAdmitted) := by
  cases i with
  | gapElapsed => exact .inl ⟨rfl, rfl⟩
  | _ => exact .inr ⟨nofun, rfl⟩

/-- Settles O37: an instruction is admitted as the event it encodes is. -/
theorem admissionIsTheStatedTable : Obligations.AdmissionIsTheStatedTable := by
  intro i s
  rw [admits_eq_eventAdmitted]
  refine ⟨exec_next_iff_admitted, fun h => ?_⟩
  have hrefused : exec i s = .refused (eventRefusal (encode i)) := exec_refused_iff.mpr ⟨h, rfl⟩
  rcases eventRefusal_cases i with ⟨hi, hq⟩ | ⟨hi, hq⟩
  · exact .inl ⟨hi, hq ▸ hrefused⟩
  · exact .inr ⟨hi, hq ▸ hrefused⟩

end Sys2Proof.Machine
end

section
/-! Every step keeps the driver's invariant (10_state.md section 2, 42_generator_fsm.md section 5). A plan that has
synthesized a frame is legal, and so is the frame; an outcome then either is Idle, or keeps the run, or starts a phase
of it whose conditions its own guards give. -/

namespace Sys2Proof.Machine

/-! ### Well-formed parameters -/

theorem Map4.get_mem_toList {α : Type} (m : Map4 α) (k : Fin 4) : m.get k ∈ m.toList :=
  List.mem_of_getElem? (Map4.toList_getElem? m k)

section
variable {cfg : Config} (h : cfg.wellFormed = true)
include h

theorem Config.ipgMap_get_mem (k : Fin 4) : cfg.ipgMap.get k ∈ ipgSet := by
  simp only [Config.wellFormed, Bool.and_eq_true, List.all_eq_true, List.contains_iff_mem] at h
  obtain ⟨⟨-, hipg⟩, -⟩ := h
  exact hipg _ (Map4.get_mem_toList _ k)

theorem Config.randomSizeOrder_get_mem (k : Fin 4) : cfg.randomSizeOrder.get k ∈ randomSet := by
  simp only [Config.wellFormed, Bool.and_eq_true, List.isPerm_iff] at h
  obtain ⟨-, hperm⟩ := h
  exact hperm.mem_iff.mp (Map4.get_mem_toList _ k)

end

/-! ### Legal plans and frames -/

theorem randomSet_subset_sizeTable : ∀ l ∈ randomSet, l ∈ sizeTable := by decide

theorem sizePolicy_legal : ∀ c : BitVec 3, sizePolicy c = .randomFromSet ∨ ∃ l ∈ sizeTable, sizePolicy c = .fixed l := by
  decide

/-- A plan from the registers is legal where it selects no unimplemented option. -/
theorem resolvePlan_legal {cfg : Config} {vc vd : Word} {p : Plan} (hcfg : cfg.wellFormed = true)
    (hplan : resolvePlan cfg vc vd = .ok p) (hdebug : debugError p = none) : p.legal := by
  obtain ⟨hptype, hsub⟩ := debugError_eq_none_iff.mp hdebug
  rcases resolvePlan_cases cfg vc vd with ⟨-, h⟩ | ⟨-, -, h⟩ | ⟨-, -, -, h⟩ | ⟨-, -, -, h⟩ <;> cases hplan.symm.trans h
  exact ⟨sizePolicy_legal _, Config.ipgMap_get_mem hcfg _, ⟨_, rfl⟩, ⟨_, rfl⟩, hptype, hsub⟩

theorem frameSize_mem_sizeTable {cfg : Config} {p : SizePolicy} (hcfg : cfg.wellFormed = true)
    (hp : p = .randomFromSet ∨ ∃ l ∈ sizeTable, p = .fixed l) (r : DrawSource) : (frameSize cfg p r).1 ∈ sizeTable := by
  rcases hp with rfl | ⟨l, hl, rfl⟩
  · exact randomSet_subset_sizeTable _ (Config.randomSizeOrder_get_mem hcfg _)
  · exact hl

theorem synthesize_legalFrame {cfg : Config} {p : Plan} {r g : DrawSource} {f : Frame} (hcfg : cfg.wellFormed = true)
    (hp : p.legal) (hsyn : synthesize cfg p r = (.ok f, g)) : legalFrame cfg.lengthByteOrder f := by
  obtain ⟨hsize, -, ⟨d, hd⟩, ⟨s, hs⟩, hptype, -⟩ := hp
  obtain ⟨-, rfl, -⟩ := synthesize_ok hsyn
  refine ⟨_, frameSize_mem_sizeTable hcfg hsize r, d, s, _, payload_length hptype _ (frameSize cfg p.size r).2, ?_⟩
  rw [header_eq, hd, hs]
  rfl

/-! ### Legal outputs -/

/-- An output that the block may make: a legal frame, a documented gap, or another kind of output. -/
def outputLegal (order : ByteOrder) : Output → Prop
  | .send f => legalFrame order f
  | .gapStart b => b ∈ ipgSet
  | .resp _ => True
  | .runEnd _ _ => True

/-- Every output so far is legal. -/
def State.OutputsLegal (s : State) : Prop := ∀ o ∈ s.outputs, outputLegal s.cfg.lengthByteOrder o

theorem State.Inv.outputsLegal {s : State} (h : s.Inv) : s.OutputsLegal := by
  intro o ho
  cases o with
  | send f => exact h.framesOk f ho
  | gapStart b => exact h.gapsOk b ho
  | resp | runEnd => trivial

/-- More legal outputs after legal ones. -/
theorem State.Inv.outputsLegal_append {s t : State} (h : s.Inv) (hcfg : t.cfg = s.cfg) {new : List Output}
    (hout : t.outputs = s.outputs ++ new) (hnew : ∀ o ∈ new, outputLegal s.cfg.lengthByteOrder o) : t.OutputsLegal := by
  intro o ho
  rw [hcfg]
  rw [hout, List.mem_append] at ho
  exact ho.elim (h.outputsLegal o) (hnew o)

/-! ### The invariant, by the kind of next state -/

section
variable {s t : State} (h : s.Inv) (hcfg : t.cfg = s.cfg) (hout : t.OutputsLegal)
include h hcfg hout

theorem State.Inv.of_idle (hidle : t.fsm = .idle) : t.Inv where
  cfgOk := hcfg ▸ h.cfgOk
  planOk _ _ hf := by cases hidle.symm.trans hf
  gapOk _ hf := by cases hidle.symm.trans hf
  singleOk _ _ hf := by cases hidle.symm.trans hf
  limitOk _ _ _ hf := by cases hidle.symm.trans hf
  framesOk f hf := hout _ hf
  gapsOk b hb := hout _ hb

/-- A phase of a run begins, or goes on, with a legal plan. -/
theorem State.Inv.of_running {ph : Phase} {p : Plan} (hrun : t.fsm = .running ph p) (hplan : p.legal)
    (hgap : ph = .gap → p.mode = .continuous ∧ t.cancelReq = false ∧ t.stopReq = false)
    (hsingle : p.mode = .single → t.cancelReq = false ∧ t.stopReq = false)
    (hlimit : p.mode = .continuous → ∀ n, t.runLimit = some n → t.count < n) : t.Inv where
  cfgOk := hcfg ▸ h.cfgOk
  planOk ph' p' hf := by
    cases hrun.symm.trans hf
    exact hplan
  gapOk p' hf := by
    cases hrun.symm.trans hf
    exact hgap rfl
  singleOk ph' p' hf hmode := by
    cases hrun.symm.trans hf
    exact hsingle hmode
  limitOk ph' p' n hf hmode hl := by
    cases hrun.symm.trans hf
    exact hlimit hmode n hl
  framesOk f hf := hout _ hf
  gapsOk b hb := hout _ hb

/-- The fields of the run stay. -/
theorem State.Inv.of_same_run (hfsm : t.fsm = s.fsm) (hcount : t.count = s.count) (hcancel : t.cancelReq = s.cancelReq)
    (hstop : t.stopReq = s.stopReq) (hlimit : t.runLimit = s.runLimit) : t.Inv where
  cfgOk := hcfg ▸ h.cfgOk
  planOk := by rw [hfsm]; exact h.planOk
  gapOk := by rw [hfsm, hcancel, hstop]; exact h.gapOk
  singleOk := by rw [hfsm, hcancel, hstop]; exact h.singleOk
  limitOk := by rw [hfsm, hcount, hlimit]; exact h.limitOk
  framesOk f hf := hout _ hf
  gapsOk b hb := hout _ hb

end

/-- With no stop due the run is below its limit and nothing is requested. -/
theorem State.checkStop_none {s : State} (h : s.checkStop = none) :
    s.cancelReq = false ∧ s.stopReq = false ∧ ∀ n, s.runLimit = some n → s.count < n := by
  obtain ⟨hc, hs, hl⟩ := State.checkStop_eq_none_iff.mp h
  exact ⟨hc, hs, limitReached_eq_false_iff.mp hl⟩

/-! ### Every outcome keeps the invariant -/

theorem Effect.keeps_inv {s t : State} {e : Event} (h : Effect s e t) (hs : s.Inv) : t.Inv := by
  cases h with
  | startLimited | startFailed | writeStops | cancelEnds | frameCompletes | frameStops | sendFailed | gapStops
  | gapFails =>
    exact hs.of_idle rfl (hs.outputsLegal_append rfl rfl (by simp [outputLegal])) rfl
  | startRejected | writeRejected | writeAcknowledged | dataWritten | limitWritten | cancelInIdle | cancelInSingle =>
    exact hs.of_same_run rfl (hs.outputsLegal_append rfl rfl (by simp [outputLegal])) rfl rfl rfl rfl rfl
  | stopRecorded hsend _ hmode | cancelRecorded hsend hmode =>
    exact hs.of_running rfl (hs.outputsLegal_append rfl rfl (by simp [outputLegal])) hsend (hs.planOk _ _ hsend) nofun
      (fun hsingle => by cases hmode.symm.trans hsingle) (fun _ n => hs.limitOk _ _ n hsend hmode)
  | startEmitted hidle hplan hgo hsyn =>
    have hlegal := resolvePlan_legal hs.cfgOk hplan (synthesize_ok hsyn).1
    have hframe := synthesize_legalFrame hs.cfgOk hlegal hsyn
    refine hs.of_running rfl (hs.outputsLegal_append rfl rfl (by simpa [outputLegal] using hframe)) rfl hlegal nofun
      (fun _ => ⟨rfl, rfl⟩) fun hmode n hn => ?_
    exact Nat.pos_of_ne_zero fun hzero => hgo hmode (hzero ▸ hn)
  | framePaces hsend hmode hgo =>
    have hlegal := hs.planOk _ _ hsend
    obtain ⟨hc, hst, hl⟩ := State.checkStop_none hgo
    obtain ⟨-, hipg, -⟩ := id hlegal
    exact hs.of_running rfl (hs.outputsLegal_append rfl rfl (by simpa [outputLegal] using hipg)) rfl hlegal
      (fun _ => ⟨hmode, hc, hst⟩) (fun _ => ⟨hc, hst⟩) (fun _ => hl)
  | gapEmits hgap hgo hsyn =>
    have hlegal := hs.planOk _ _ hgap
    have hframe := synthesize_legalFrame hs.cfgOk hlegal hsyn
    exact hs.of_running rfl (hs.outputsLegal_append rfl rfl (by simpa [outputLegal] using hframe)) rfl hlegal nofun
      (hs.singleOk _ _ hgap) (fun hmode n => hs.limitOk _ _ n hgap hmode)

/-- An input taken from the inbox is no part of the invariant. -/
theorem State.Inv.setInbox {s : State} (h : s.Inv) (q : List Input) : (s.setInbox q).Inv :=
  h.of_same_run rfl h.outputsLegal rfl rfl rfl rfl rfl

/-- Settles O39: the instruction, the reset event, and a step with nothing to take. -/
theorem everyStepKeepsTheInvariant : Obligations.EveryStepKeepsTheInvariant := by
  intro s t hs hstep
  rcases step_next_cases hstep with ⟨-, rfl⟩ | ⟨rest, -, rfl⟩ | ⟨e, rest, i, -, -, hexec⟩
  · exact hs
  · exact (hs.setInbox rest).of_idle rfl (hs.setInbox rest).outputsLegal rfl
  · exact (effect_of_exec hexec).keeps_inv (hs.setInbox rest)

/-- Settles O38: after reset the block is in Idle with the default parameters and no output. -/
theorem resetMeetsBothInvariants : Obligations.ResetMeetsBothInvariants :=
  ⟨⟨by decide, nofun, nofun, nofun, nofun, nofun, nofun⟩, rfl⟩

end Sys2Proof.Machine
end

section
/-! What instructions and steps leave alone, and what they do not read (10_state.md R20, R21, 00_scope.md R3,
20_memory.md R52, 60_exceptions.md R219, 70_reset_and_hazards.md R240, R246). -/

namespace Sys2Proof.Machine

/-! ### Steps -/

theorem step_event {s : State} {e : Event} {rest : List Input} {i : Instr} (hin : s.inbox = .event e :: rest)
    (hdec : decode s.fsm.isRunning e = .ok i) : step s = exec i (s.setInbox rest) := by
  have hdec' : (s.setInbox rest).decodeEvent e = .ok i := hdec
  simp only [step, State.takeInput_cons hin, performEvent, hdec']

theorem step_reset {s : State} {rest : List Input} (hin : s.inbox = .reset :: rest) :
    step s = .next (s.setInbox rest).resetBlock := by
  simp only [step, State.takeInput_cons hin]

/-- Settles O5: the decoder reads the control point, which taking an input leaves alone. -/
theorem stepRunsTheDecodedInstruction : Obligations.StepRunsTheDecodedInstruction :=
  fun _ _ _ _ hin hdec => step_event hin hdec

/-- Settles O6: an empty inbox gives no input. -/
theorem aStepWithNothingToTakeHolds : Obligations.AStepWithNothingToTakeHolds := by
  intro s hin
  simp only [step, State.takeInput_nil hin]

/-- Settles O7: the fields of `State.resetBlock`. -/
theorem resetEventSetsEveryResetValue : Obligations.ResetEventSetsEveryResetValue :=
  fun _ _ hin => ⟨_, step_reset hin, rfl, rfl, rfl, rfl, rfl, rfl, rfl, rfl, rfl, rfl, rfl⟩

/-- Settles O8: the fields of `State.reset`. -/
theorem resetStateHoldsTheStatedValues : Obligations.ResetStateHoldsTheStatedValues :=
  ⟨rfl, rfl, rfl, rfl, rfl, rfl, rfl, rfl, rfl, rfl⟩

/-! ### What a step keeps -/

/-- Settles O42: a run's plan and limit change in no outcome that stays in Running; the reset event goes to Idle. -/
theorem aRunKeepsItsPlanAndLimit : Obligations.ARunKeepsItsPlanAndLimit := by
  intro s t ph ph' p p' hstep hs ht
  rcases step_next_cases hstep with ⟨-, rfl⟩ | ⟨rest, -, rfl⟩ | ⟨e, rest, i, -, -, hexec⟩
  · cases hs.symm.trans ht
    exact ⟨rfl, rfl⟩
  · cases ht
  · exact (effect_of_exec hexec).plan_runLimit_eq hs ht

/-- Settles O48: no outcome writes the parameters, and the reset event keeps them. -/
theorem noStepChangesAParameter : Obligations.NoStepChangesAParameter := by
  intro s t hstep
  rcases step_next_cases hstep with ⟨-, rfl⟩ | ⟨rest, -, rfl⟩ | ⟨e, rest, i, -, -, hexec⟩
  · rfl
  · rfl
  · exact (effect_of_exec hexec).cfg_eq

/-! ### What an instruction does not read

A refusal depends on the event and the control point only. A completed instruction has the same outcome in a state that
differs in REG[CTRL], in the history of outputs and in the inputs to come, and also in REG[DATA] where no run is
accepted: each outcome's conditions hold there too. -/

theorem exec_refused_of_controlPoint {i : Instr} {s s' : State} {q : Refusal} (hcp : s'.controlPoint = s.controlPoint)
    (h : exec i s = .refused q) : exec i s' = .refused q := by
  obtain ⟨hadmit, hq⟩ := exec_refused_iff.mp h
  exact exec_refused_iff.mpr ⟨hcp ▸ hadmit, hq⟩

/-- A start attempt's error does not depend on REG[DATA] (40_register_decoder.md R109). -/
theorem resolvePlan_error_data {cfg : Config} {v d : Word} {err : Err} (h : resolvePlan cfg v d = .error err)
    (d' : Word) : resolvePlan cfg v d' = .error err := by
  revert h
  unfold resolvePlan
  cases decodeCtrl cfg v with
  | error _ => exact id
  | ok o => dsimp only; split_ifs <;> simp

theorem Effect.elsewhere {s t : State} {e : Event} (h : Effect s e t) (x d : Word) (o : List Output) (q : List Input)
    (hd : d = s.data ∨ ∀ o', t.outputs ≠ s.outputs ++ [.resp .accepted, o']) :
    ∃ y z new, t.outputs = s.outputs ++ new ∧ t.inbox = s.inbox ∧ (x = s.ctrl → y = t.ctrl) ∧
      (d = s.data → z = t.data) ∧
      Effect { s with ctrl := x, data := d, outputs := o, inbox := q } e
        { t with ctrl := y, data := z, outputs := o ++ new, inbox := q } := by
  cases h with
  | startRejected hidle hplan =>
    exact ⟨_, d, _, rfl, rfl, fun _ => rfl, id, .startRejected hidle (resolvePlan_error_data hplan d)⟩
  | startLimited hidle hplan hmode hlimit =>
    obtain rfl : d = s.data := hd.resolve_right fun hno => hno _ rfl
    exact ⟨_, _, _, rfl, rfl, fun _ => rfl, id, .startLimited hidle hplan hmode hlimit⟩
  | startFailed hidle hplan hgo hsyn =>
    obtain rfl : d = s.data := hd.resolve_right fun hno => hno _ rfl
    exact ⟨_, _, _, rfl, rfl, fun _ => rfl, id, .startFailed hidle hplan hgo hsyn⟩
  | startEmitted hidle hplan hgo hsyn =>
    obtain rfl : d = s.data := hd.resolve_right fun hno => hno _ rfl
    exact ⟨_, _, _, rfl, rfl, fun _ => rfl, id, .startEmitted hidle hplan hgo hsyn⟩
  | writeRejected hrun hbit => exact ⟨_, d, _, rfl, rfl, fun _ => rfl, id, .writeRejected hrun hbit⟩
  | writeStops hgap hbit hmode hstop =>
    exact ⟨_, d, _, rfl, rfl, fun _ => rfl, id, .writeStops hgap hbit hmode hstop⟩
  | stopRecorded hsend hbit hmode hstop =>
    exact ⟨_, d, _, rfl, rfl, fun _ => rfl, id, .stopRecorded hsend hbit hmode hstop⟩
  | writeAcknowledged hrun hbit hgo => exact ⟨_, d, _, rfl, rfl, fun _ => rfl, id, .writeAcknowledged hrun hbit hgo⟩
  | dataWritten => exact ⟨x, _, _, rfl, rfl, id, fun _ => rfl, .dataWritten⟩
  | limitWritten => exact ⟨x, d, _, rfl, rfl, id, id, .limitWritten⟩
  | cancelInIdle hidle => exact ⟨x, d, _, rfl, rfl, id, id, .cancelInIdle hidle⟩
  | cancelInSingle hsend hmode => exact ⟨x, d, _, rfl, rfl, id, id, .cancelInSingle hsend hmode⟩
  | cancelRecorded hsend hmode => exact ⟨x, d, _, rfl, rfl, id, id, .cancelRecorded hsend hmode⟩
  | cancelEnds hgap => exact ⟨x, d, _, rfl, rfl, id, id, .cancelEnds hgap⟩
  | frameCompletes hsend hmode => exact ⟨x, d, _, rfl, rfl, id, id, .frameCompletes hsend hmode⟩
  | frameStops hsend hmode hstop => exact ⟨x, d, _, rfl, rfl, id, id, .frameStops hsend hmode hstop⟩
  | framePaces hsend hmode hgo => exact ⟨x, d, _, rfl, rfl, id, id, .framePaces hsend hmode hgo⟩
  | sendFailed hsend => exact ⟨x, d, _, rfl, rfl, id, id, .sendFailed hsend⟩
  | gapStops hgap hstop => exact ⟨x, d, _, rfl, rfl, id, id, .gapStops hgap hstop⟩
  | gapFails hgap hgo hsyn => exact ⟨x, d, _, rfl, rfl, id, id, .gapFails hgap hgo hsyn⟩
  | gapEmits hgap hgo hsyn => exact ⟨x, d, _, rfl, rfl, id, id, .gapEmits hgap hgo hsyn⟩

/-- Settles O43: the same outcome with another REG[CTRL] and all else as it stands. -/
theorem noInstructionReadsTheCtrlRegister : Obligations.NoInstructionReadsTheCtrlRegister := by
  refine fun i s x => ⟨fun t h => ?_, fun q h => exec_refused_of_controlPoint (s := s) rfl h⟩
  obtain ⟨y, z, new, hout, hin, -, hz, heffect⟩ := (effect_of_exec h).elsewhere x s.data s.outputs s.inbox (.inl rfl)
  rw [hz rfl, ← hout] at heffect
  refine ⟨y, exec_next_iff.mpr ?_⟩
  rwa [hin]

/-- Settles O44: the same outcome with another REG[DATA] and all else as it stands. -/
theorem onlyAStartReadsTheDataRegister : Obligations.OnlyAStartReadsTheDataRegister := by
  intro i s t x h hno
  obtain ⟨y, z, new, hout, hin, hy, -, heffect⟩ := (effect_of_exec h).elsewhere s.ctrl x s.outputs s.inbox (.inr hno)
  rw [hy rfl, ← hout] at heffect
  refine ⟨z, exec_next_iff.mpr ?_⟩
  rwa [hin]

/-- Settles O45: the same outcome after another history and before other inputs. -/
theorem noInstructionReadsOutputsOrInputsToCome : Obligations.NoInstructionReadsOutputsOrInputsToCome := by
  refine fun i s o q => ⟨fun t h => ?_, fun a h => exec_refused_of_controlPoint (s := s) rfl h⟩
  obtain ⟨y, z, new, hout, hin, hy, hz, heffect⟩ := (effect_of_exec h).elsewhere s.ctrl s.data o q (.inl rfl)
  rw [hy rfl, hz rfl] at heffect
  exact ⟨new, hout, hin, exec_next_iff.mpr heffect⟩

/-! ### Single-mode runs -/

/-- A host event in a single-mode run is answered, and nothing of the run changes (R246). -/
theorem Effect.host_in_single {s t : State} {e : Event} (h : Effect s e t) {p : Plan}
    (hsend : s.fsm = .running .awaitSend p) (hmode : p.mode = .single) (hhost : eventFromHost e = true) :
    ∃ a, t.outputs = s.outputs ++ [.resp a] ∧ t.fsm = s.fsm ∧ t.count = s.count ∧ t.cancelReq = s.cancelReq ∧
      t.stopReq = s.stopReq ∧ t.runLimit = s.runLimit ∧ t.rng = s.rng ∧ t.cfg = s.cfg := by
  cases h with
  | startRejected hfsm | startLimited hfsm | startFailed hfsm | startEmitted hfsm | cancelInIdle hfsm
  | writeStops hfsm | cancelEnds hfsm => cases hsend.symm.trans hfsm
  | stopRecorded hfsm _ hcont | cancelRecorded hfsm hcont =>
    cases hsend.symm.trans hfsm
    cases hmode.symm.trans hcont
  | frameCompletes | frameStops | framePaces | sendFailed | gapStops | gapFails | gapEmits => cases hhost
  | writeRejected | writeAcknowledged | dataWritten | limitWritten | cancelInSingle =>
    exact ⟨_, rfl, rfl, rfl, rfl, rfl, rfl, rfl, rfl⟩

/-- Settles O46: a host event is admitted and only answered; each answer of the transport has one outcome. -/
theorem aSingleRunIgnoresCancelStopAndLimit : Obligations.ASingleRunIgnoresCancelStopAndLimit := by
  intro s p hsend hmode
  refine ⟨fun i hi => ?_, ⟨_, _, exec_of_effect rfl (.frameCompletes hsend hmode), rfl, rfl⟩,
    fun x => ⟨_, exec_of_effect rfl (.sendFailed hsend), rfl, rfl⟩⟩
  have hhost : eventFromHost (encode i) = true := fromHost_eq_eventFromHost i ▸ hi
  obtain ⟨t, ht⟩ := exec_next_iff_admitted.mpr (eventAdmitted_of_fromHost s.controlPoint hhost)
  obtain ⟨a, hrest⟩ := (effect_of_exec ht).host_in_single hsend hmode hhost
  exact ⟨t, a, ht, hrest⟩

/-! ### Ends of runs -/

/-- An outcome whose last output is a RUNEND goes to Idle with that count and keeps REG[DATA] and REG[LIMIT], and only a
write of CTRL changes REG[CTRL] (R152, R219). -/
theorem Effect.of_last_runEnd {s t : State} {e : Event} (h : Effect s e t) {r : Reason} {n : Nat}
    (hlast : t.outputs.getLast? = some (.runEnd r n)) :
    t.controlPoint = .idle ∧ n = t.count ∧ t.data = s.data ∧ t.limit = s.limit ∧
      (t.ctrl = s.ctrl ∨ e = .wrCtrl t.ctrl) := by
  cases h with
  | startLimited | startFailed =>
    obtain ⟨-, rfl⟩ : _ = r ∧ 0 = n := by simpa [endedAtStart] using hlast
    exact ⟨rfl, rfl, rfl, rfl, .inr rfl⟩
  | writeStops =>
    obtain ⟨-, rfl⟩ : _ = r ∧ s.count = n := by simpa using hlast
    exact ⟨rfl, rfl, rfl, rfl, .inr rfl⟩
  | frameCompletes | frameStops | sendFailed | gapStops | gapFails | cancelEnds =>
    obtain ⟨-, rfl⟩ : _ = r ∧ _ = n := by simpa [endedWith] using hlast
    exact ⟨rfl, rfl, rfl, rfl, .inl rfl⟩
  | startRejected | startEmitted | writeRejected | stopRecorded | writeAcknowledged | dataWritten | limitWritten
  | cancelInIdle | cancelInSingle | cancelRecorded | framePaces | gapEmits =>
    simp [answeredWith, startedWith] at hlast

/-- Settles O47: the last output is the RUNEND. -/
theorem aFailedRunKeepsTheRegisters : Obligations.AFailedRunKeepsTheRegisters := by
  intro i s t err n before hexec hout
  have hlast : t.outputs.getLast? = some (.runEnd (.failed err) n) := by rw [hout, List.getLast?_concat]
  exact (effect_of_exec hexec).of_last_runEnd hlast

end Sys2Proof.Machine
end

section
/-! Literals (45_host_literals.md R190 to R196): the parser's answer from the radix and digits that a text splits into, and
when a digit string denotes a number. -/

namespace Sys2Proof.Machine

/-! ### The answer, from the radix and the digits -/

section
variable {text digits : List Char} {radix : Radix}

theorem parseLiteralChars_of_numeral {n : Nat} (hsplit : splitRadix (stripSeparators text) = (radix, digits))
    (hn : numeral radix.base digits = some n) :
    parseLiteralChars text = if n ≤ 0xFFFF then .ok (BitVec.ofNat 16 n)
      else .error (.literalParseError (String.ofList text) radix.base) := by
  simp only [parseLiteralChars, hsplit, hn]

theorem parseLiteralChars_of_no_numeral (hsplit : splitRadix (stripSeparators text) = (radix, digits))
    (hn : numeral radix.base digits = none) :
    parseLiteralChars text = .error (.literalParseError (String.ofList text) radix.base) := by
  simp only [parseLiteralChars, hsplit, hn]

/-- An error holds the text as received and the radix (R195). -/
theorem parseLiteralChars_error {e : Err} (hsplit : splitRadix (stripSeparators text) = (radix, digits))
    (h : parseLiteralChars text = .error e) : e = .literalParseError (String.ofList text) radix.base := by
  cases hn : numeral radix.base digits with
  | none => exact Except.error.inj (h.symm.trans (parseLiteralChars_of_no_numeral hsplit hn))
  | some n =>
    have hparse := h.symm.trans (parseLiteralChars_of_numeral hsplit hn)
    split at hparse
    · cases hparse
    · exact Except.error.inj hparse

end

/-- A value depends on the text without separators only. -/
theorem parseLiteralChars_ok_congr {a b : List Char} (hab : stripSeparators a = stripSeparators b) {v : Word}
    (h : parseLiteralChars a = .ok v) : parseLiteralChars b = .ok v := by
  obtain ⟨radix, digits, hsplit⟩ : ∃ radix digits, splitRadix (stripSeparators b) = (radix, digits) := ⟨_, _, rfl⟩
  cases hn : numeral radix.base digits with
  | none => cases h.symm.trans (parseLiteralChars_of_no_numeral (hab ▸ hsplit) hn)
  | some n =>
    rw [parseLiteralChars_of_numeral (hab ▸ hsplit) hn] at h
    rw [parseLiteralChars_of_numeral hsplit hn]
    split at h
    · next hle => rw [if_pos hle, h]
    · cases h

theorem stripSeparators_separator {before after : List Char} {c : Char} (hc : c = '_' ∨ c.toNat = 39) :
    stripSeparators (before ++ c :: after) = stripSeparators (before ++ after) := by
  have hsep : isSeparator c = true := by simpa [isSeparator] using hc
  simp [stripSeparators, hsep]

/-- Settles O49: both texts are the same without separators. -/
theorem aSeparatorDoesNotChangeALiteral : Obligations.ASeparatorDoesNotChangeALiteral := by
  intro before after c hc v
  have hstrip : stripSeparators (before ++ c :: after) = stripSeparators (before ++ after) := stripSeparators_separator hc
  exact ⟨parseLiteralChars_ok_congr hstrip, parseLiteralChars_ok_congr hstrip.symm⟩

/-- Settles O51: the first two characters without separators select the radix. -/
theorem literalErrorsNameTheTextAndRadix : Obligations.LiteralErrorsNameTheTextAndRadix := by
  rintro text t e ht h
  rw [← stripSeparators_eq_filter] at ht
  refine ⟨?_, ?_, ?_, fun hno => ?_⟩
  · rintro ⟨ds, hds⟩
    exact parseLiteralChars_error (radix := .hexadecimal) (digits := ds) (by rw [← ht, hds]; rfl) h
  · rintro ⟨ds, hds⟩
    exact parseLiteralChars_error (radix := .octal) (digits := ds) (by rw [← ht, hds]; rfl) h
  · rintro ⟨ds, hds⟩
    exact parseLiteralChars_error (radix := .binary) (digits := ds) (by rw [← ht, hds]; rfl) h
  · exact parseLiteralChars_error (radix := .decimal) (digits := t) (by rw [← ht, splitRadix_decimal hno]) h

/-! ### Digits -/

theorem digitValue_digitChar : ∀ d < 16, ∀ upper, digitValue (digitChar d upper) = some d := by decide

theorem isSeparator_digitChar : ∀ d < 16, ∀ upper, isSeparator (digitChar d upper) = false := by decide

theorem digitIn_digitChar {base d : Nat} (hbase : base ≤ 16) (hd : d < base) (upper : Bool) :
    digitIn base (digitChar d upper) = some d := by
  simp only [digitIn, digitValue_digitChar d (hd.trans_le hbase) upper, if_pos hd]

/-- A character that is no digit's character, in either case, is no digit. -/
theorem digitIn_eq_none {base : Nat} {c : Char} (h : ∀ d < base, c ≠ digitChar d true ∧ c ≠ digitChar d false) :
    digitIn base c = none := by
  cases hd : digitIn base c with
  | none => rfl
  | some d =>
    obtain ⟨hvalue, hlt⟩ := digitIn_eq_some hd
    obtain ⟨-, hupper | hlower⟩ := eq_digitChar_of_digitValue hvalue
    · exact absurd hupper (h d hlt).1
    · exact absurd hlower (h d hlt).2

/-! ### Digit strings -/

/-- The characters of a digit string, each digit with its case. -/
def digitText (digits : List (Nat × Bool)) : List Char := digits.map fun d => digitChar d.1 d.2

theorem readDigits_digitText {base : Nat} (hbase : base ≤ 16) {digits : List (Nat × Bool)}
    (h : ∀ d ∈ digits, d.1 < base) (acc : Nat) :
    readDigits base acc (digitText digits) = some (digits.foldl (fun a d => a * base + d.1) acc) := by
  induction digits generalizing acc with
  | nil => rfl
  | cons d ds ih =>
    obtain ⟨hd, hds⟩ := List.forall_mem_cons.mp h
    simp only [digitText, List.map_cons, readDigits, digitIn_digitChar hbase hd, List.foldl_cons]
    exact ih hds _

theorem readDigits_eq_none {base : Nat} {c : Char} (hc : digitIn base c = none) {cs : List Char} (hmem : c ∈ cs)
    (acc : Nat) : readDigits base acc cs = none := by
  induction cs generalizing acc with
  | nil => cases hmem
  | cons x xs ih =>
    cases hx : digitIn base x with
    | none => simp only [readDigits, hx]
    | some d =>
      have hne : c ≠ x := fun h => by simp [← h, hc] at hx
      simp only [readDigits, hx]
      exact ih ((List.mem_cons.mp hmem).resolve_left hne) _

theorem numeral_eq_readDigits {base : Nat} {cs : List Char} (h : cs ≠ []) : numeral base cs = readDigits base 0 cs := by
  cases cs with
  | nil => exact absurd rfl h
  | cons => rfl

theorem numeral_digitText {base : Nat} (hbase : base ≤ 16) {digits : List (Nat × Bool)} (hne : digits ≠ [])
    (h : ∀ d ∈ digits, d.1 < base) :
    numeral base (digitText digits) = some (digits.foldl (fun a d => a * base + d.1) 0) := by
  rw [numeral_eq_readDigits (by simpa [digitText] using hne), readDigits_digitText hbase h]

/-- No digit at all, or a foreign character among them, and no number is denoted (R193). -/
theorem numeral_eq_none {base : Nat} {cs : List Char} (h : cs = [] ∨ ∃ c ∈ cs, digitIn base c = none) :
    numeral base cs = none := by
  rcases h with rfl | ⟨c, hmem, hc⟩
  · rfl
  · rw [numeral_eq_readDigits (List.ne_nil_of_mem hmem), readDigits_eq_none hc hmem]

/-! ### Texts that select a radix -/

theorem stripSeparators_eq_self {cs : List Char} (h : ∀ c ∈ cs, isSeparator c = false) : stripSeparators cs = cs :=
  List.filter_eq_self.mpr fun c hc => by rw [h c hc]; rfl

theorem stripSeparators_digitText {digits : List (Nat × Bool)} (h : ∀ d ∈ digits, d.1 < 16) :
    stripSeparators (digitText digits) = digitText digits := by
  refine stripSeparators_eq_self fun c hc => ?_
  obtain ⟨d, hd, rfl⟩ := List.mem_map.mp hc
  exact isSeparator_digitChar _ (h d hd) _

/-- A string of decimal digits selects no other radix: `x`, `o` and `b` are no decimal digits (R192). -/
theorem digitText_not_prefixed {digits : List (Nat × Bool)} (h : ∀ d ∈ digits, d.1 < 10) (ds : List Char) :
    digitText digits ≠ '0' :: 'x' :: ds ∧ digitText digits ≠ '0' :: 'o' :: ds ∧ digitText digits ≠ '0' :: 'b' :: ds := by
  have hdigit : ∀ c ∈ digitText digits, digitIn 10 c ≠ none := fun c hc => by
    obtain ⟨d, hd, rfl⟩ := List.mem_map.mp hc
    simp [digitIn_digitChar (by decide) (h d hd)]
  refine ⟨fun ht => hdigit 'x' ?_ rfl, fun ht => hdigit 'o' ?_ rfl, fun ht => hdigit 'b' ?_ rfl⟩ <;> simp [ht]

/-- `pre` selects the radix of a literal whose digits are `body`, and holds no separator (R192). -/
def RadixPrefix (radix : Radix) (pre body : List Char) : Prop :=
  splitRadix (pre ++ body) = (radix, body) ∧ stripSeparators pre = pre

theorem radixPrefix_of_cases {pre body : List Char} {n : Nat}
    (h : (pre = ['0', 'x'] ∧ n = 16) ∨ (pre = ['0', 'o'] ∧ n = 8) ∨ (pre = ['0', 'b'] ∧ n = 2) ∨
      (pre = [] ∧ n = 10 ∧ ∀ ds, body ≠ '0' :: 'x' :: ds ∧ body ≠ '0' :: 'o' :: ds ∧ body ≠ '0' :: 'b' :: ds)) :
    ∃ radix : Radix, radix.base = n ∧ RadixPrefix radix pre body := by
  rcases h with ⟨rfl, rfl⟩ | ⟨rfl, rfl⟩ | ⟨rfl, rfl⟩ | ⟨rfl, rfl, hno⟩
  · exact ⟨.hexadecimal, rfl, rfl, rfl⟩
  · exact ⟨.octal, rfl, rfl, rfl⟩
  · exact ⟨.binary, rfl, rfl, rfl⟩
  · exact ⟨.decimal, rfl, splitRadix_decimal hno, rfl⟩

theorem Radix.base_le : ∀ radix : Radix, radix.base ≤ 16
  | .hexadecimal | .octal | .binary | .decimal => by decide

/-- Settles O50: the text splits into its radix and its digits, whose number the reader computes. -/
theorem literalsDenoteTheirNumber : Obligations.LiteralsDenoteTheirNumber := by
  rintro pre n digits hpre hne hdigits text _ rfl rfl
  have hno : pre = [] ∧ n = 10 → pre = [] ∧ n = 10 ∧ ∀ ds, digitText digits ≠ '0' :: 'x' :: ds ∧
      digitText digits ≠ '0' :: 'o' :: ds ∧ digitText digits ≠ '0' :: 'b' :: ds :=
    fun ⟨hnil, hten⟩ => ⟨hnil, hten, digitText_not_prefixed (hten ▸ hdigits)⟩
  obtain ⟨radix, rfl, hsplit, hstrip⟩ :=
    radixPrefix_of_cases (hpre.imp_right (Or.imp_right (Or.imp_right hno)))
  have hbase := radix.base_le
  have hlt : ∀ d ∈ digits, d.1 < 16 := fun d hd => (hdigits d hd).trans_le hbase
  refine parseLiteralChars_of_numeral (digits := digitText digits) ?_ (numeral_digitText hbase hne hdigits)
  rw [stripSeparators, List.filter_append, ← stripSeparators, ← stripSeparators, hstrip]
  exact (congrArg (fun cs => splitRadix (pre ++ cs)) (stripSeparators_digitText hlt)).trans hsplit

/-- Settles O54: no number is denoted, so the error holds the text and the radix. -/
theorem literalsWithoutDigitsOrWithAForeignCharacterFail :
    Obligations.LiteralsWithoutDigitsOrWithAForeignCharacterFail := by
  intro text pre body n hpre htext hbody
  obtain ⟨radix, rfl, hsplit, -⟩ := radixPrefix_of_cases hpre
  rw [← stripSeparators_eq_filter] at htext
  refine parseLiteralChars_of_no_numeral (htext ▸ hsplit) (numeral_eq_none (hbody.imp_right ?_))
  exact fun ⟨c, hmem, hc⟩ => ⟨c, hmem, digitIn_eq_none hc⟩

end Sys2Proof.Machine
end
